-- ==== Sys2Proof/Word.lean ====
section
/-! DEFINITION. The number types of the correlator's records, tables and reports (12_formats.md: every link
carries 16-bit words, and each field has the width its layout gives it). -/

namespace Sys2Proof

/-- One word of a link. -/
abbrev Word := BitVec 16
/-- A display-file word address, 0 to 1,048,575 (R1). -/
abbrev FileAddr := BitVec 20
/-- A display coordinate, signed, −2048 to 2047 (R1, section 12.1). -/
abbrev Coord := BitVec 12
/-- The value of a name level, 0 to 4095 (R20). -/
abbrev NameVal := BitVec 12
/-- A menu id, 0 to 63 (R20). -/
abbrev MenuId := BitVec 6
/-- An item number, 0 to 31 (R20). -/
abbrev ItemNo := BitVec 5
/-- An intensity, 0 to 7 (R1). -/
abbrev Intensity := BitVec 3
/-- A character code of a TEXT (section 12.5). -/
abbrev Char8 := BitVec 8
/-- The pass counter's values, 0 to 65535, wrapping (R8). -/
abbrev PassNo := BitVec 16
/-- A directive's tag, 0 to 255 (section 10.3). -/
abbrev Tag := BitVec 8
/-- The number of a station, its head, its Head Port and its Pen Channel. -/
abbrev HeadNo := Fin 4

/-- A screen point. -/
structure Point where
  x : Coord
  y : Coord
  deriving DecidableEq, Repr

end Sys2Proof
end

