-- ==== Sys2Proof/Syntax.lean ====
section
/-! DEFINITION. The commands the correlator takes: the records of the display stream (chapter 1, section 12.1),
its directives (chapter 10, section 12.2) and the events of opcode_table.json. -/

namespace Sys2Proof

/-- A bank's name (R160). -/
inductive BankId where
  | a | b
  deriving DecidableEq, Repr

/-- The tip switch level (R51). -/
inductive Tip where
  | up | down
  deriving DecidableEq, Repr

/-- The menu button level (R51). -/
inductive Button where
  | released | held
  deriving DecidableEq, Repr

/-- The present state of one station's two switch lines (R51). -/
structure PenLines where
  tip : Tip
  button : Button
  deriving DecidableEq, Repr

/-- A beam record: what a head draws or moves the beam for (00_scope.md, Terms; R1). -/
inductive Beam where
  | move (p : Point)
  | draw (p : Point) (i : Intensity)
  | text (i : Intensity) (chars : List Char8)
  deriving DecidableEq, Repr

/-- A mark, consumed by the Context Tracker of each destination head (R19). -/
inductive Mark where
  | name (level : BitVec 3) (value : NameVal)
  | menuOpen (id : MenuId)
  | item (k : ItemNo)
  | menuClose
  deriving DecidableEq, Repr

/-- A slot record (R15). -/
inductive Slot where
  | readout (p : Point)
  | cross
  deriving DecidableEq, Repr

/-- A directive's name and operands (section 12.2). Fields are as wide as the layout's, so a number that a
directive does not allow is refused by its rule and is not malformed (R194). -/
inductive Directive where
  | writeTable (bank : BankId) (table : BitVec 4) (first : Word) (count : BitVec 5) (images : List Word)
  | readTable (bank : BankId) (table : BitVec 4) (first : Word) (count : BitVec 5)
  | copyBank
  | clearBank
  | switchBank
  | cancelSwitch
  | enableChannel (ch : BitVec 8)
  | disableChannel (ch : BitVec 8)
  | abortAttempt (ch : BitVec 8)
  | forceTrack (ch : BitVec 8) (x y : Word) (view : NameVal)
  | clearHighlight (ch : BitVec 8)
  | setPatternFlag (on : Bool) (pattern : BitVec 8)
  | restartHead (head : BitVec 8)
  | readFaults
  | readFaultsClear
  | readChannel (n : BitVec 8)
  | readHead (n : BitVec 8)
  | readBanks
  /-- READ-STATUS item PASS, whose item code is 4; the codes 5 to 15 name no item (R177; log entry 11). -/
  | readPass (item : BitVec 4)
  | restart
  | unknown (code : BitVec 8) (operands : List Word)
  deriving DecidableEq, Repr

/-- What a record carries after its header (section 1.1). -/
inductive RecordBody where
  | malformed
  | passStart
  | passEnd
  | beam (b : Beam)
  | mark (m : Mark)
  | slot (k : Slot)
  | directive (tag : Tag) (want : Bool) (d : Directive)
  deriving DecidableEq, Repr

/-- A record of the display stream: every record carries a file address (R1). -/
structure Record where
  addr : FileAddr
  body : RecordBody
  deriving DecidableEq, Repr

/-- What every DIRECTIVE record carries beside its name and operands: its file address, its tag and its
want-reply flag (section 10.3). -/
structure DirHeader where
  addr : FileAddr
  tag : Tag
  want : Bool
  deriving DecidableEq, Repr

/-- The commands: one constructor for each row of opcode_table.json, in the table's order. -/
inductive Instr where
  | powerOnReset (lines : Vector PenLines 4)
  | malformedRecord (addr : FileAddr)
  | passStart (addr : FileAddr)
  | passEnd (addr : FileAddr)
  | move (addr : FileAddr) (p : Point)
  | draw (addr : FileAddr) (p : Point) (i : Intensity)
  | text (addr : FileAddr) (i : Intensity) (chars : List Char8)
  | name (addr : FileAddr) (level : BitVec 3) (value : NameVal)
  | menuOpen (addr : FileAddr) (id : MenuId)
  | item (addr : FileAddr) (k : ItemNo)
  | menuClose (addr : FileAddr)
  | crossSlot (addr : FileAddr)
  | readoutSlot (addr : FileAddr) (p : Point)
  | writeTable (h : DirHeader) (bank : BankId) (table : BitVec 4) (first : Word) (count : BitVec 5)
      (images : List Word)
  | readTable (h : DirHeader) (bank : BankId) (table : BitVec 4) (first : Word) (count : BitVec 5)
  | copyBank (h : DirHeader)
  | clearBank (h : DirHeader)
  | switchBank (h : DirHeader)
  | cancelSwitch (h : DirHeader)
  | enableChannel (h : DirHeader) (ch : BitVec 8)
  | disableChannel (h : DirHeader) (ch : BitVec 8)
  | abortAttempt (h : DirHeader) (ch : BitVec 8)
  | forceTrack (h : DirHeader) (ch : BitVec 8) (x y : Word) (view : NameVal)
  | clearHighlight (h : DirHeader) (ch : BitVec 8)
  | setPatternFlag (h : DirHeader) (on : Bool) (pattern : BitVec 8)
  | restartHead (h : DirHeader) (head : BitVec 8)
  | readStatusFaults (h : DirHeader)
  | readStatusFaultsClear (h : DirHeader)
  | readStatusChannel (h : DirHeader) (n : BitVec 8)
  | readStatusHead (h : DirHeader) (n : BitVec 8)
  | readStatusBanks (h : DirHeader)
  | readStatusPass (h : DirHeader) (item : BitVec 4)
  | restart (h : DirHeader)
  | unknownDirective (h : DirHeader) (code : BitVec 8) (operands : List Word)
  | completion (n : HeadNo)
  | stallTimerExpiry (n : HeadNo)
  | strike (n : HeadNo)
  | tipDown (n : HeadNo)
  | tipUp (n : HeadNo)
  | buttonPress (n : HeadNo)
  | buttonRelease (n : HeadNo)
  | copyMove
  | creditGrant (word : Word)
  | transmissionEnd
  | selection
  deriving DecidableEq, Repr

/-- The DIRECTIVE record of a header and a directive. -/
def DirHeader.record (h : DirHeader) (d : Directive) : Record := ⟨h.addr, .directive h.tag h.want d⟩

/-- The command that offers a record to the Stream Input. -/
def Record.toInstr (r : Record) : Instr :=
  match r.body with
  | .malformed => .malformedRecord r.addr
  | .passStart => .passStart r.addr
  | .passEnd => .passEnd r.addr
  | .beam (.move p) => .move r.addr p
  | .beam (.draw p i) => .draw r.addr p i
  | .beam (.text i cs) => .text r.addr i cs
  | .mark (.name l v) => .name r.addr l v
  | .mark (.menuOpen id) => .menuOpen r.addr id
  | .mark (.item k) => .item r.addr k
  | .mark .menuClose => .menuClose r.addr
  | .slot .cross => .crossSlot r.addr
  | .slot (.readout p) => .readoutSlot r.addr p
  | .directive t w d =>
    let h : DirHeader := ⟨r.addr, t, w⟩
    match d with
    | .writeTable bank tb f c is => .writeTable h bank tb f c is
    | .readTable bank tb f c => .readTable h bank tb f c
    | .copyBank => .copyBank h
    | .clearBank => .clearBank h
    | .switchBank => .switchBank h
    | .cancelSwitch => .cancelSwitch h
    | .enableChannel c => .enableChannel h c
    | .disableChannel c => .disableChannel h c
    | .abortAttempt c => .abortAttempt h c
    | .forceTrack c x y v => .forceTrack h c x y v
    | .clearHighlight c => .clearHighlight h c
    | .setPatternFlag on p => .setPatternFlag h on p
    | .restartHead n => .restartHead h n
    | .readFaults => .readStatusFaults h
    | .readFaultsClear => .readStatusFaultsClear h
    | .readChannel n => .readStatusChannel h n
    | .readHead n => .readStatusHead h n
    | .readBanks => .readStatusBanks h
    | .readPass i => .readStatusPass h i
    | .restart => .restart h
    | .unknown c ws => .unknownDirective h c ws

end Sys2Proof
end

