-- ==== Sys2Proof/Machine/Fields.lean ====
section
/-! DEFINITION. Bit fields of words and screen arithmetic (12_formats.md, first paragraph; 00_scope.md,
Conventions). -/

namespace Sys2Proof

/-- The field of `len` bits whose lowest bit is `lo`. -/
def Word.field (w : Word) (lo len : Nat) : BitVec len := w.extractLsb' lo len

/-- Bit `i` of a word. -/
def Word.bit (w : Word) (i : Nat) : Bool := w.getLsbD i

/-- Word `i` of a list; a word beyond the end reads as 0. -/
def wordAt (ws : List Word) (i : Nat) : Word := ws.getD i 0

/-- A flag that its chapter lists as "clear or set", as a word: "its number in the order in which its chapter lists
the values, starting from 0" (R196; log entry 16). -/
def clearOrSet (b : Bool) : Word := if b then 1 else 0

/-- A flag that its chapter lists as "set or clear", as a word: set is its first value (R196; log entry 16). -/
def setOrClear (b : Bool) : Word := if b then 0 else 1

/-- A number as a word. -/
def natWord (n : Nat) : Word := BitVec.ofNat 16 n

/-- A coordinate as a full signed word (section 12.4). -/
def coordWord (c : Coord) : Word := c.signExtend 16

/-- A value wider than one word, high word first (12_formats.md). -/
def addrWords (a : FileAddr) : List Word := [a.extractLsb' 16 4 |>.setWidth 16, a.setWidth 16]

/-- A coordinate brought to the nearer end of −2048 to 2047 (00_scope.md, Coordinates). -/
def clampCoord (v : Int) : Coord := BitVec.ofInt 12 (max (-2048) (min 2047 v))

/-- A position clamped to the screen. -/
def clampPoint (x y : Int) : Point := ⟨clampCoord x, clampCoord y⟩

/-- One value for each head, from a function of its number. -/
def perHead {α : Type} (f : HeadNo → α) : Vector α 4 := #v[f 0, f 1, f 2, f 3]

/-- The heads in ascending order. -/
def allHeads : List HeadNo := [0, 1, 2, 3]

/-- A channel or head number above 3 names none (R164, BAD-CHANNEL). -/
def headNo? (n : BitVec 8) : Option HeadNo := if h : n.toNat < 4 then some ⟨n.toNat, h⟩ else none

/-- A count that stops at the top of its range (00_scope.md, Ranges). -/
def satAdd (top a b : Nat) : Nat := min top (a + b)

end Sys2Proof
end

