-- ==== Sys2Proof/WellFormed.lean ====
section
/-! DEFINITION. Which commands words of a link can spell: the form check of R3 and R194 over the operands, and the
operands of the rows that share a directive code. -/

namespace Sys2Proof

/-- Words of one entry image of each table code (section 12.3); none for the codes 11 to 15. -/
def imageWords (table : BitVec 4) : Option Nat :=
  match table.toNat with
  | 0 => some 6
  | 1 => some 3
  | 2 => some 1
  | 3 => some 6
  | 4 => some 1
  | 5 => some 4
  | 6 => some 2
  | 7 => some 7
  | 8 => some 4
  | 9 => some 1
  | 10 => some 4
  | _ => none

/-- A WRITE-TABLE's images fill the words its table and count require, within the length field (R194). -/
def imagesWellFormed (table : BitVec 4) (count : BitVec 5) (images : List Word) : Bool :=
  match imageWords table with
  | some n => images.length == count.toNat * n && decide (images.length ≤ 249)
  | none => decide (images.length ≤ 249)

/-- Whether a directive is one that a DIRECTIVE record of its own row spells. -/
def Directive.wellFormed : Directive → Bool
  | .writeTable _ table _ count images => imagesWellFormed table count images
  | .readPass item => decide (4 ≤ item.toNat)
  | .unknown code operands => decide (code.toNat = 0 ∨ 15 < code.toNat) && decide (operands.length ≤ 251)
  | _ => true

/-- Whether a record is one that words of the display stream spell and that R3 does not find malformed. -/
def Record.wellFormed (r : Record) : Bool :=
  match r.body with
  | .malformed => false
  | .beam (.text _ chars) => decide (1 ≤ chars.length ∧ chars.length ≤ 32)
  | .mark (.name level _) => decide (1 ≤ level.toNat ∧ level.toNat ≤ 6)
  | .directive _ _ d => d.wellFormed
  | .passStart | .passEnd | .beam _ | .mark _ | .slot _ => true

/-- Whether a command's operands are ones its row can have. -/
def Instr.wellFormed : Instr → Bool
  | .text _ _ chars => decide (1 ≤ chars.length ∧ chars.length ≤ 32)
  | .name _ level _ => decide (1 ≤ level.toNat ∧ level.toNat ≤ 6)
  | .writeTable _ _ table _ count images => imagesWellFormed table count images
  | .readStatusPass _ it => decide (4 ≤ it.toNat)
  | .unknownDirective _ code operands =>
    decide (code.toNat = 0 ∨ 15 < code.toNat) && decide (operands.length ≤ 251)
  | .powerOnReset _ | .malformedRecord _ | .passStart _ | .passEnd _ | .move _ _ | .draw _ _ _
  | .menuOpen _ _ | .item _ _ | .menuClose _ | .crossSlot _ | .readoutSlot _ _ | .readTable _ _ _ _ _
  | .copyBank _ | .clearBank _ | .switchBank _ | .cancelSwitch _ | .enableChannel _ _
  | .disableChannel _ _ | .abortAttempt _ _ | .forceTrack _ _ _ _ _ | .clearHighlight _ _
  | .setPatternFlag _ _ _ | .restartHead _ _ | .readStatusFaults _ | .readStatusFaultsClear _
  | .readStatusChannel _ _ | .readStatusHead _ _ | .readStatusBanks _ | .restart _ | .completion _
  | .stallTimerExpiry _ | .strike _ | .tipDown _ | .tipUp _ | .buttonPress _ | .buttonRelease _
  | .copyMove | .creditGrant _ | .transmissionEnd | .selection => true

end Sys2Proof
end

