-- ==== Sys2Proof/Decode.lean ====
section
/-! DEFINITION. From words to commands: opcode_table.json gives no row any bits, so no table word spells a command;
the display stream's records are read from their words as R194 and section 12.1 give them, and written back. -/

namespace Sys2Proof

/-- No row of opcode_table.json gives bits (log entry 17). -/
def decodeTableWord (_nbits _w : Nat) : Option Instr := none

/-! ## Reading a record (R194) -/

/-- The body if the length agrees with the kind, else a malformed record. -/
def formed (ok : Bool) (b : RecordBody) : RecordBody := if ok then b else .malformed

/-- A coordinate word is read from its bits 11..0, its higher bits ignored. -/
def readCoord (w : Word) : Coord := w.field 0 12

/-- A point from two words. -/
def readPoint (ws : List Word) : Point := ⟨readCoord (wordAt ws 0), readCoord (wordAt ws 1)⟩

/-- Two characters per word, the first in bits 15..8. -/
def readChars (ws : List Word) : List Char8 := ws.flatMap fun w => [w.field 8 8, w.field 0 8]

/-- The bank bit: 0 for A, 1 for B (section 12.2). -/
def readBank (w : Word) : BankId := if w.bit 15 then .b else .a

/-- The operand words a directive code requires; none for WRITE-TABLE and for a code section 12.2 does not list. -/
def operandWords (code : Nat) : Option Nat :=
  match code with
  | 2 => some 2
  | 3 | 4 | 5 | 6 | 15 => some 0
  | 7 | 8 | 9 | 11 | 12 | 13 | 14 => some 1
  | 10 => some 4
  | _ => none

/-- READ-STATUS by its item code (section 12.2). -/
def readStatusItem (w : Word) : Directive :=
  match (w.field 12 4).toNat with
  | 0 => if w.bit 11 then .readFaultsClear else .readFaults
  | 1 => .readChannel (w.field 0 8)
  | 2 => .readHead (w.field 0 8)
  | 3 => .readBanks
  | _ => .readPass (w.field 12 4)

/-- A directive from its code and operand words (section 12.2). -/
def readOperands (code : BitVec 8) (ops : List Word) : Directive :=
  let w := wordAt ops 0
  match code.toNat with
  | 1 => .writeTable (readBank w) (w.field 8 4) (wordAt ops 1) (w.field 0 5) (ops.drop 2)
  | 2 => .readTable (readBank w) (w.field 8 4) (wordAt ops 1) (w.field 0 5)
  | 3 => .copyBank
  | 4 => .clearBank
  | 5 => .switchBank
  | 6 => .cancelSwitch
  | 7 => .enableChannel (w.field 0 8)
  | 8 => .disableChannel (w.field 0 8)
  | 9 => .abortAttempt (w.field 0 8)
  | 10 => .forceTrack (w.field 0 8) (wordAt ops 1) (wordAt ops 2) ((wordAt ops 3).field 0 12)
  | 11 => .clearHighlight (w.field 0 8)
  | 12 => .setPatternFlag (w.bit 15) (w.field 0 8)
  | 13 => .restartHead (w.field 0 8)
  | 14 => readStatusItem w
  | 15 => .restart
  | _ => .unknown code ops

/-- Whether a DIRECTIVE's length agrees with its code: 4 plus its operand words; for WRITE-TABLE by the table and
count of its first operand word; any length of 4 or more for an unknown code, of 6 or more for a WRITE-TABLE that
names no table (R194). -/
def directiveLengthOk (len : Nat) (code : BitVec 8) (ops : List Word) : Bool :=
  if code.toNat = 1 then
    match imageWords ((wordAt ops 0).field 8 4) with
    | some n => decide (6 ≤ len) && len == 6 + ((wordAt ops 0).field 0 5).toNat * n
    | none => decide (6 ≤ len)
  else match operandWords code.toNat with
    | some n => len == 4 + n
    | none => decide (4 ≤ len)

/-- A record's body from its kind code, its length field and its payload words (section 12.1, R194). -/
def readBody (kind len : Nat) (ws : List Word) : RecordBody :=
  let w := wordAt ws 0
  match kind with
  | 0 => formed (len == 2) .passStart
  | 1 => formed (len == 2) .passEnd
  | 2 => formed (len == 4) (.beam (.move (readPoint ws)))
  | 3 => formed (len == 5) (.beam (.draw (readPoint ws) ((wordAt ws 2).field 0 3)))
  | 4 =>
    let count := (w.field 0 6).toNat
    formed (len == 3 + (count + 1) / 2 && decide (1 ≤ count ∧ count ≤ 32))
      (.beam (.text (w.field 8 3) ((readChars (ws.drop 1)).take count)))
  | 5 =>
    let level := w.field 12 3
    formed (len == 3 && decide (1 ≤ level.toNat ∧ level.toNat ≤ 6)) (.mark (.name level (w.field 0 12)))
  | 6 => formed (len == 3) (.mark (.menuOpen (w.field 0 6)))
  | 7 => formed (len == 3) (.mark (.item (w.field 0 5)))
  | 8 => formed (len == 2) (.mark .menuClose)
  | 9 => formed (len == 4) (.slot (.readout (readPoint ws)))
  | 10 => formed (len == 2) (.slot .cross)
  | 11 =>
    let code := w.field 8 8
    formed (decide (4 ≤ len) && directiveLengthOk len code (ws.drop 2))
      (.directive (w.field 0 8) ((wordAt ws 1).bit 15) (readOperands code (ws.drop 2)))
  | _ => .malformed

/-- One record read from the front of the stream's words, with the words after it: the input takes the number of words
its length field states, two for a length of 0 or 1 (R194). `none` while the words have not all come. -/
def readRecord : List Word → Option (Record × List Word)
  | w0 :: w1 :: rest =>
    let len := (w0.field 4 8).toNat
    let n := len - 2
    if rest.length < n then none
    else some (⟨⟨w0.field 0 4 ++ w1, readBody (w0.field 12 4).toNat len (rest.take n)⟩, rest.drop n⟩)
  | _ => none

/-- The command that words of the display stream spell, with the words after it. -/
def readCommand (ws : List Word) : Option (Instr × List Word) := (readRecord ws).map fun r => (r.1.toInstr, r.2)

/-! ## Writing a record (section 12.1): bits that no field occupies are sent as 0 -/

/-- A coordinate in bits 11..0. -/
def writeCoord (c : Coord) : Word := c.setWidth 16

/-- Two characters per word; bits 7..0 of the last word are 0 where the count is odd. -/
def writeChars : List Char8 → List Word
  | [] => []
  | [c] => [c ++ (0 : BitVec 8)]
  | c :: d :: cs => (c ++ d) :: writeChars cs

/-- A beam record's kind code and payload. -/
def writeBeam : Beam → BitVec 4 × List Word
  | .move p => (2, [writeCoord p.x, writeCoord p.y])
  | .draw p i => (3, [writeCoord p.x, writeCoord p.y, i.setWidth 16])
  | .text i cs =>
    (4, ((0 : BitVec 5) ++ i ++ (0 : BitVec 2) ++ BitVec.ofNat 6 cs.length : Word) :: writeChars cs)

/-- The bank bit. -/
def writeBank (bank : BankId) : BitVec 1 := match bank with | .a => 0 | .b => 1

/-- The first operand word of WRITE-TABLE and READ-TABLE. -/
def writeTableWord (bank : BankId) (table : BitVec 4) (count : BitVec 5) : Word :=
  writeBank bank ++ (0 : BitVec 3) ++ table ++ (0 : BitVec 3) ++ count

/-- A directive's code and operand words (section 12.2). -/
def writeDirective : Directive → BitVec 8 × List Word
  | .writeTable bank table first count images => (1, writeTableWord bank table count :: first :: images)
  | .readTable bank table first count => (2, [writeTableWord bank table count, first])
  | .copyBank => (3, [])
  | .clearBank => (4, [])
  | .switchBank => (5, [])
  | .cancelSwitch => (6, [])
  | .enableChannel ch => (7, [ch.setWidth 16])
  | .disableChannel ch => (8, [ch.setWidth 16])
  | .abortAttempt ch => (9, [ch.setWidth 16])
  | .forceTrack ch x y view => (10, [ch.setWidth 16, x, y, view.setWidth 16])
  | .clearHighlight ch => (11, [ch.setWidth 16])
  | .setPatternFlag on pattern => (12, [BitVec.ofBool on ++ (0 : BitVec 7) ++ pattern])
  | .restartHead head => (13, [head.setWidth 16])
  | .readFaults => (14, [0])
  | .readFaultsClear => (14, [0x0800])
  | .readChannel n => (14, [(0x10 : BitVec 8) ++ n])
  | .readHead n => (14, [(0x20 : BitVec 8) ++ n])
  | .readBanks => (14, [0x3000])
  | .readPass it => (14, [it ++ (0 : BitVec 12)])
  | .restart => (15, [])
  | .unknown code ops => (code, ops)

/-- A record's kind code and payload; a malformed record has none of its own. -/
def writeBody : RecordBody → Option (BitVec 4 × List Word)
  | .malformed => none
  | .passStart => some (0, [])
  | .passEnd => some (1, [])
  | .beam r => some (writeBeam r)
  | .mark (.name l v) => some (5, [(0 : BitVec 1) ++ l ++ v])
  | .mark (.menuOpen id) => some (6, [id.setWidth 16])
  | .mark (.item k) => some (7, [k.setWidth 16])
  | .mark .menuClose => some (8, [])
  | .slot (.readout p) => some (9, [writeCoord p.x, writeCoord p.y])
  | .slot .cross => some (10, [])
  | .directive tag want d =>
    some (11, ((writeDirective d).1 ++ tag : Word) :: (BitVec.ofBool want ++ (0 : BitVec 15) : Word)
      :: (writeDirective d).2)

/-- The header's two words and the payload. -/
def withHeader (addr : FileAddr) (kind : BitVec 4) (payload : List Word) : List Word :=
  (kind ++ BitVec.ofNat 8 (2 + payload.length) ++ addr.extractLsb' 16 4) :: addr.setWidth 16 :: payload

/-- The words of a record; none for a malformed one. -/
def writeRecord (r : Record) : Option (List Word) :=
  (writeBody r.body).map fun p => withHeader r.addr p.1 p.2

end Sys2Proof
end

