-- ==== Sys2Proof/Config.lean ====
section
/-! DEFINITION. The sizes the manual fixes for the part. The spec leaves no VALUE open that a step of the model
would have to produce, so there is no opaque constant here (NOTES.md, Assumptions). -/

namespace Sys2Proof.Config

/-- "A head holds at most 8 beam records that it has received and not yet completed" (R33, R37). -/
def headCredit : Nat := 8
/-- Places of a channel's report queue (R180, R181). -/
def queuePlaces : Nat := 4
/-- Spaces of the reply queue (R180, R183). -/
def replySpaces : Nat := 8
/-- The greatest return credit (R188). -/
def maxReturnCredit : Nat := 15
/-- Where fault counts stop (R185). -/
def maxFaultCount : Nat := 65535
/-- Where hits, passes-seen and tally counters stop (R69, R116). -/
def maxHits : Nat := 255
/-- The greatest count of a WRITE-TABLE or READ-TABLE (R165, R166). -/
def maxEntries : Nat := 16

end Sys2Proof.Config
end

