-- ==== Sys2Proof/Machine/State.lean ====
section
/-! DEFINITION. Everything the manual gives the correlator to hold, as plain data, and its state after power-on
reset. -/

namespace Sys2Proof.Machine

/-- No command of the block ends in a fault: no rule of the manual gives a state in which the part stops (the fault
kinds of R185 are counts and flags in State). The type therefore has no constructor (safe: log entry 19). -/
inductive Fault : Type
  deriving DecidableEq, Repr

/-- Why a command has no meaning here. -/
inductive Refusal where
  /-- Raised by an arm of Dispatch whose command has no meaning yet; no arm raises it now. Safe: the model stops. -/
  | notModelled (mnemonic : String)
  deriving DecidableEq, Repr

/-! ## The tables (R161), every field at the width its image gives it (section 12.3, R195) -/

/-- One head-map window (R10). -/
structure Window where
  enable : Bool
  base : FileAddr
  limit : FileAddr
  deriving DecidableEq, Repr

/-- A HEADMAP entry (R10). -/
structure HeadMapEntry where
  w0 : Window
  w1 : Window
  deriving DecidableEq, Repr

/-- A PROFILE entry (R161). `popup` 63 is none (section 12.3). -/
structure ProfileEntry where
  g : BitVec 4
  l : BitVec 3
  lagAllocate : Bool
  d : BitVec 3
  initFilter : BitVec 2
  k : BitVec 4
  m : BitVec 4
  a : BitVec 8
  popup : MenuId
  view : BitVec 4
  deriving DecidableEq, Repr

/-- A CLASS entry (R100). -/
structure ClassEntry where
  highlight : Bool
  track : Bool
  priority : BitVec 3
  deriving DecidableEq, Repr

/-- A FILTER entry (R91): `mask` bit f enables family f; `refuseShallow` is the shallow rule REFUSE. -/
structure FilterEntry where
  mask : BitVec 64
  other : Bool
  refuseShallow : Bool
  level : BitVec 3
  limit : BitVec 13
  deriving DecidableEq, Repr

/-- A MENU entry (R103): kind 1 FIXED, 2 POPUP; owner 0 to 3; the item count less one. -/
structure MenuEntry where
  kind : BitVec 2
  owner : BitVec 3
  countLess1 : BitVec 5
  first : BitVec 8
  w : BitVec 12
  h : BitVec 12
  deriving DecidableEq, Repr

/-- An ITEM entry (R104). -/
structure ItemEntry where
  action : BitVec 3
  enabled : Bool
  code : BitVec 12
  arg : BitVec 4
  deriving DecidableEq, Repr

/-- One level of a PATTERN entry (R148). -/
structure PatternLevel where
  care : Bool
  value : NameVal
  deriving DecidableEq, Repr

/-- A PATTERN entry (R148): kind 0 NONE, 1 HIGHLIGHT, 2 BLINK, 3 BLANK; `mask` bit h is head h's mark. -/
structure PatternEntry where
  kind : BitVec 2
  mask : BitVec 4
  active : Bool
  depth : BitVec 3
  levels : Vector PatternLevel 6
  deriving DecidableEq, Repr

/-- A SCALE entry (R142). -/
structure ScaleEntry where
  x0 : Coord
  y0 : Coord
  sx : Word
  sy : Word
  deriving DecidableEq, Repr

/-- The GLOBAL entry (R161): default head 7 is none; `faultMask` bit k enables fault number k (R185). -/
structure GlobalEntry where
  defaultHead : BitVec 3
  dim : Intensity
  stall : Vector (BitVec 8) 4
  faultMask : BitVec 12
  deriving DecidableEq, Repr

/-- A bank: the eleven tables of R161, in table order. -/
structure Bank where
  headmap : Vector HeadMapEntry 4
  profile : Vector ProfileEntry 4
  classes : Vector ClassEntry 64
  filter : Vector FilterEntry 4
  permit : Vector Word 1024
  menu : Vector MenuEntry 32
  item : Vector ItemEntry 256
  pattern : Vector PatternEntry 16
  scale : Vector ScaleEntry 16
  ring : Vector (BitVec 3) 8
  global : GlobalEntry
  deriving DecidableEq, Repr

/-- The tables' names, in table order (R161). -/
inductive TableId where
  | headmap | profile | classes | filter | permit | menu | item | pattern | scale | ring | global
  deriving DecidableEq, Repr

/-- The default values of R161, R91, R100, R103, R104 and R148. -/
def Bank.defaults : Bank where
  headmap := .replicate 4 ⟨⟨false, 0, 0⟩, ⟨false, 0, 0⟩⟩
  profile := .replicate 4
    { g := 3, l := 2, lagAllocate := false, d := 3, initFilter := 0, k := 4, m := 2, a := 32, popup := 63, view := 0 }
  classes := .replicate 64 { highlight := false, track := false, priority := 0 }
  filter := .replicate 4
    { mask := BitVec.allOnes 64, other := true, refuseShallow := false, level := 3, limit := 4096 }
  permit := .replicate 1024 0
  menu := .replicate 32 { kind := 0, owner := 7, countLess1 := 0, first := 0, w := 0, h := 0 }
  item := .replicate 256 { action := 0, enabled := false, code := 0, arg := 0 }
  pattern := .replicate 16
    { kind := 0, mask := 0, active := false, depth := 1, levels := .replicate 6 ⟨false, 0⟩ }
  scale := .replicate 16 { x0 := 0, y0 := 0, sx := 0, sy := 0 }
  ring := #v[0, 1, 2, 3, 4, 5, 4, 5]
  global := { defaultHead := 7, dim := 2, stall := .replicate 4 0, faultMask := BitVec.allOnes 12 }

/-! ## Context Trackers (R20) and snapshots (R30) -/

/-- A level of a name stack within its depth (R20). -/
inductive LevelVal where
  | value (v : NameVal)
  | unknown
  deriving DecidableEq, Repr

/-- A region's kind (R25). -/
inductive RegionKind where
  | fixed | popup | undefined
  deriving DecidableEq, Repr

/-- A current item that is a number, with its disabled flag, "meaningful only while the current item is a number"
(R20). -/
structure ItemMark where
  number : ItemNo
  disabled : Bool
  deriving DecidableEq, Repr

/-- The menu region state (R20). -/
inductive Region where
  | outside
  | inside (id : MenuId) (kind : RegionKind) (item : Option ItemMark)
  deriving DecidableEq, Repr

/-- A Context Tracker: the name stack's levels 1 to depth (levels deeper are empty), the poisoned flag and the menu
region state (R20). -/
structure Tracker where
  stack : List LevelVal
  poisoned : Bool
  region : Region
  deriving DecidableEq, Repr

/-- A context snapshot (R30). The pop-up flag is `Snapshot.popup`. -/
inductive Snapshot where
  | name (path : List LevelVal) (poisoned : Bool)
  | menu (id : MenuId) (kind : RegionKind) (item : Option ItemMark)
  deriving DecidableEq, Repr

/-! ## Head Ports and the trail (R33, R35) -/

/-- An arm of the tracking cross. -/
inductive Arm where
  | e | n | w | s
  deriving DecidableEq, Repr

/-- Which half of an arm a cross DRAW draws (R35). -/
inductive Segment where
  | inner | outer
  deriving DecidableEq, Repr

/-- A trail entry's origin, with the fields present for that origin only (R35). -/
inductive Origin where
  | stream (addr : FileAddr)
  | cross (arm : Arm) (segment : Option Segment)
  | readout
  deriving DecidableEq, Repr

/-- A trail entry's kind. -/
inductive BeamKind where
  | move | draw | text
  deriving DecidableEq, Repr

/-- A trail entry's state. -/
inductive EntryState where
  | sent | drawn
  deriving DecidableEq, Repr

/-- A trail entry (R35). -/
structure TrailEntry where
  origin : Origin
  kind : BeamKind
  visible : Bool
  snap : Snapshot
  pos : Point
  state : EntryState
  deriving DecidableEq, Repr

/-- A head's state (R33). -/
inductive HeadState where
  | up | down
  deriving DecidableEq, Repr

/-- The stall timer (R33, R42): the milliseconds are those it last started or restarted with (log entry 6). -/
inductive StallTimer where
  | stopped
  | running (ms : Nat)
  deriving DecidableEq, Repr

/-- A Head Port (R33). -/
structure HeadPort where
  state : HeadState
  credit : Nat
  trail : List TrailEntry
  timer : StallTimer
  beam : Point
  deriving DecidableEq, Repr

/-- A record as sent on a head link (R194: an expansion record carries file address 0). -/
structure HeadRecord where
  addr : FileAddr
  beam : Beam
  deriving DecidableEq, Repr

/-- A beam record as the Stream Editor has left it for one head, not yet forwarded (R14, R34). -/
structure Prepared where
  beam : Beam
  origin : Origin
  snap : Snapshot
  deriving DecidableEq, Repr

/-- The record in hand and what keeps it there: for each head the records its delivery has still to forward, or a
directive that waits for reply space (section 1.5). -/
inductive InHand where
  | deliver (r : Record) (wait : Vector (List Prepared) 4)
  | directive (h : DirHeader) (d : Directive)
  deriving DecidableEq, Repr

/-- The pass state (section 1.3). -/
inductive PassState where
  | closed | opened
  deriving DecidableEq, Repr

/-! ## Reports (section 11.6) -/

/-- A name path without unknown levels, level 1 first. -/
abbrev Path := List NameVal

/-- Why an activity was aborted (R85). -/
inductive AbortReason where
  | host | disabled | headDown
  deriving DecidableEq, Repr

/-- A PICK report (R77). -/
structure PickReport where
  pass : PassNo
  path : Path
  addr : FileAddr
  hits : Nat
  passesSeen : Nat
  priority : BitVec 3
  pos : Point
  closeCall : Bool
  crowded : Bool
  deriving DecidableEq, Repr

/-- Where a MENU report comes from: the pop-up flag, and for a fixed menu the resolution's fields (R79, R119). -/
inductive MenuSource where
  | popup
  | fixed (hits : Nat) (closeCall crowded : Bool)
  deriving DecidableEq, Repr

/-- A MENU report (R79, R119); no code for a void choice (R106). -/
structure MenuReport where
  pass : PassNo
  menu : MenuId
  item : ItemNo
  code : Option (BitVec 12)
  source : MenuSource
  deriving DecidableEq, Repr

/-- A TRACK report (R138): the eighths of each axis, or absent. -/
structure TrackReport where
  pass : PassNo
  pos : Point
  x : Option Int
  y : Option Int
  xOverflow : Bool
  yOverflow : Bool
  deriving DecidableEq, Repr

/-- A report of a station, of the kinds that go through a channel queue (R181). -/
inductive ChannelReport where
  | pick (r : PickReport)
  | menu (r : MenuReport)
  | miss (pass : PassNo)
  | track (r : TrackReport)
  | trackEnd (pos : Point)
  | trackLost (pos : Point)
  | aborted (reason : AbortReason)
  deriving DecidableEq, Repr

/-- The kinds of ChannelReport, in the order of section 12.4. -/
inductive ReportKind where
  | pick | menu | miss | track | trackEnd | trackLost | aborted
  deriving DecidableEq, Repr

/-! ## Pen Channels (R65) -/

/-- What a candidate stands for (R55, R56). -/
inductive Identity where
  | pick (path : Path)
  | menu (id : MenuId) (item : ItemNo)
  deriving DecidableEq, Repr

/-- A valid candidate entry (R69). The sample path is absent for MENU. -/
structure Candidate where
  ident : Identity
  sample : Option Path
  addr : FileAddr
  pos : Point
  hits : Nat
  passesSeen : Nat
  lastPass : PassNo
  deriving DecidableEq, Repr

/-- Which pair was used more recently (R70). -/
inductive Pair where
  | low | high
  deriving DecidableEq, Repr

/-- The replacement tree (R70): `q1` when mark Q is 1, `r3` when mark R is 3. -/
structure Tree where
  p : Pair
  q1 : Bool
  r3 : Bool
  deriving DecidableEq, Repr

/-- The initial marks: P HIGH, Q 1 and R 3 (R70). -/
def Tree.init : Tree := ⟨.high, true, true⟩

/-- A level of one arm in the arm set (R128). -/
inductive ArmLevel where
  | none | inner | outer
  deriving DecidableEq, Repr

/-- The four arms' levels (R128). -/
structure Arms where
  e : ArmLevel
  n : ArmLevel
  w : ArmLevel
  s : ArmLevel
  deriving DecidableEq, Repr

/-- No arm seen. -/
def Arms.empty : Arms := ⟨.none, .none, .none, .none⟩

/-- The tracking state (R128). -/
structure Tracking where
  pos : Point
  arms : Arms
  miss : Nat
  view : NameVal
  update : Option TrackReport
  deriving DecidableEq, Repr

/-- The saved state of a save slot, with the saved tracking state of a saved TRACK (R109). -/
inductive Saved where
  | idle | gather | held
  | track (t : Tracking)
  deriving DecidableEq, Repr

/-- The save slot (R109). -/
structure SaveSlot where
  state : Saved
  gather : Nat
  crowded : Bool
  tipAtOpening : Tip
  note : Bool
  deriving DecidableEq, Repr

/-- What a channel holds while its pop-up is open (R108 to R117). -/
structure Popup where
  menu : MenuId
  anchor : Point
  tally : Vector Nat 32
  count : Nat
  slot : SaveSlot
  deriving DecidableEq, Repr

/-- The state a report's event would have the channel enter (R80). -/
inductive Successor where
  | idle | held
  | track (pos : Point) (view : NameVal)
  deriving DecidableEq, Repr

/-- The channel state (section 5.2), each with what the channel holds in that state alone: tracking state in TRACK
(R128), the open pop-up and save slot in POPUP (R109), the held report and its successor in WAIT (R80). -/
inductive ChanState where
  | off | idle | gather | held
  | track (t : Tracking)
  | popup (p : Popup)
  | wait (report : ChannelReport) (succ : Successor)
  deriving DecidableEq, Repr

/-- A Pen Channel (R65). -/
structure PenChannel where
  state : ChanState
  tip : Tip
  button : Button
  lastStrike : Option Point
  table : Vector (Option Candidate) 4
  tree : Tree
  gather : Nat
  crowded : Bool
  highlight : Option Path
  filterSet : BitVec 2
  deriving DecidableEq, Repr

/-! ## Directive replies (R164) -/

/-- The standby state (R162). -/
inductive Standby where
  | ready | copying | incomplete
  deriving DecidableEq, Repr

/-- The refusal reasons of R164, in its order. -/
inductive Reason where
  | unknownDirective | badTable | badIndex | activeBank | busy | switchPending | notPending | badChannel | badState
  | standbyIncomplete
  deriving DecidableEq, Repr

/-- What disabling did with the channel's activity (R67). -/
inductive Disposition where
  | none | abortedQueued | abortedLost | heldDiscarded
  deriving DecidableEq, Repr

/-- The six sources the ring names (R180). -/
inductive Source where
  | chan (n : HeadNo)
  | reply
  | status
  deriving DecidableEq, Repr

/-- The channel states' names, as a status reply reports them (R88). -/
inductive ChanKind where
  | off | idle | gather | held | track | popup | wait
  deriving DecidableEq, Repr

/-- The data of READ-STATUS item CHANNEL (R88, R126, R146). -/
structure ChannelStatus where
  state : ChanKind
  tip : Tip
  button : Button
  lastStrike : Option Point
  filterSet : BitVec 2
  gather : Nat
  crowded : Bool
  tree : Tree
  highlight : Option Path
  table : Vector (Option Candidate) 4
  held : Option (ReportKind × Successor)
  popup : Option Popup
  tracking : Option Tracking
  deriving DecidableEq, Repr

/-- One trail entry as a status reply reports it, without its snapshot (R48). -/
structure EntryStatus where
  origin : Origin
  kind : BeamKind
  visible : Bool
  state : EntryState
  pos : Point
  deriving DecidableEq, Repr

/-- The data of READ-STATUS item HEAD (R48, R32). -/
structure HeadStatus where
  state : HeadState
  credit : Nat
  beam : Point
  timerRunning : Bool
  sent : Nat
  drawn : Nat
  entries : List EntryStatus
  tracker : Tracker
  deriving DecidableEq, Repr

/-- The data of READ-STATUS item BANKS (R177). -/
structure BanksStatus where
  active : BankId
  standby : Standby
  copyPos : Option TableId
  switchTag : Option Tag
  flags : Vector Bool 16
  deriving DecidableEq, Repr

/-- Where a switch's validation failed (R173): for a RING absence, index 8 and the absent source. -/
structure SwitchFailure where
  table : TableId
  index : Nat
  source : Option Source
  deriving DecidableEq, Repr

/-- The data of a reply. -/
inductive ReplyData where
  | none
  | table (bank : BankId) (active : Bool) (standby : Standby) (images : List Word)
  | disposition (d : Disposition)
  | start (pos : Point)
  | faults (pending : Vector Bool 12) (counts : Vector Nat 12)
  /-- Item CHANNEL: the channel reported on, whose number its pending update carries (R138), and its state. -/
  | channel (n : HeadNo) (c : ChannelStatus)
  | head (h : HeadStatus)
  | banks (b : BanksStatus)
  | pass (state : PassState) (count : PassNo)
  | switchDone (pass : PassNo) (active : BankId)
  | switchIncomplete (pass : PassNo)
  | switchFailed (pass : PassNo) (f : SwitchFailure)
  deriving DecidableEq, Repr

/-- A directive's outcome (R163). -/
inductive DirOutcome where
  | done
  | refused (r : Reason)
  deriving DecidableEq, Repr

/-- A REPLY report: the tag and the directive's code, its outcome and its data (R164). -/
structure Reply where
  tag : Tag
  code : BitVec 8
  outcome : DirOutcome
  data : ReplyData
  deriving DecidableEq, Repr

/-- A report on the return link (section 11.6). -/
inductive Report where
  | chan (n : HeadNo) (r : ChannelReport)
  | reply (r : Reply)
  | status (pending : Vector Bool 12) (counts : Vector Nat 12)
  deriving DecidableEq, Repr

/-- The return link's state (R180). -/
inductive Link where
  | free
  | busy (r : Report)
  deriving DecidableEq, Repr

/-! ## The whole part -/

/-- The state of the correlator, block by block (00_scope.md, Blocks), and the queue of the commands that wait. -/
structure State where
  -- Stream Input and Router
  passState : PassState
  passCount : PassNo
  inHand : Option InHand
  /-- The records offered by the refresh controller and not yet taken, oldest first (log entry 3). -/
  offered : List Record
  -- Context Trackers
  trackers : Vector Tracker 4
  -- Stream Editor
  flags : Vector Bool 16
  -- Head Ports
  ports : Vector HeadPort 4
  /-- What has been sent on each head link, oldest first: an output of the part (log entry 9). -/
  headLinks : Vector (List HeadRecord) 4
  -- Pen Channels
  chans : Vector PenChannel 4
  -- Table Banks and Directive Unit
  bankA : Bank
  bankB : Bank
  selector : BankId
  standby : Standby
  pendingSwitch : Option Tag
  copyPos : Option TableId
  -- Report Unit
  queues : Vector (List ChannelReport) 4
  replies : List Reply
  reserved : Bool
  faultCounts : Vector Nat 12
  faultPending : Vector Bool 12
  ringPtr : Fin 8
  credit : Nat
  link : Link
  /-- The commands that wait, first in, first out. -/
  pending : List Instr
  deriving DecidableEq, Repr

/-- An empty tracker (R29, R32). -/
def Tracker.empty : Tracker := ⟨[], false, .outside⟩

/-- A Head Port after power-on reset (R49, R18). -/
def HeadPort.powerOn : HeadPort :=
  { state := .up, credit := Config.headCredit, trail := [], timer := .stopped, beam := ⟨0, 0⟩ }

/-- A Pen Channel after power-on reset, its levels taking the present state of its lines (R51, R89). -/
def PenChannel.powerOn (b : Bank) (n : HeadNo) (lines : PenLines) : PenChannel where
  state := .off
  tip := lines.tip
  button := lines.button
  lastStrike := none
  table := .replicate 4 none
  tree := Tree.init
  gather := 0
  crowded := false
  highlight := none
  filterSet := b.profile[n].initFilter

/-- The part after power is applied (R18, R32, R49, R89, R127, R146, R149, R160, R193), with the stations' lines as
given. -/
def State.powerOn (lines : Vector PenLines 4) : State where
  passState := .closed
  passCount := 0
  inHand := none
  offered := []
  trackers := .replicate 4 Tracker.empty
  flags := Bank.defaults.pattern.map (·.active)
  ports := .replicate 4 HeadPort.powerOn
  headLinks := .replicate 4 []
  chans := #v[PenChannel.powerOn Bank.defaults 0 lines[0], PenChannel.powerOn Bank.defaults 1 lines[1],
    PenChannel.powerOn Bank.defaults 2 lines[2], PenChannel.powerOn Bank.defaults 3 lines[3]]
  bankA := Bank.defaults
  bankB := Bank.defaults
  selector := .a
  standby := .ready
  pendingSwitch := none
  copyPos := none
  queues := .replicate 4 []
  replies := []
  reserved := false
  faultCounts := .replicate 12 0
  faultPending := .replicate 12 false
  ringPtr := 0
  credit := 0
  link := .free
  pending := []

/-- The machine right after power-on reset, no pen pressed and no button held (log entry 7). -/
def State.reset : State := State.powerOn (.replicate 4 ⟨.up, .released⟩)

end Sys2Proof.Machine
end

