-- ==== Sys2Proof/Machine/Operands.lean ====
section
/-! DEFINITION. What the fields of the tables mean (R195) and the entry images that directives carry
(section 12.3). -/

namespace Sys2Proof.Machine

/-! ## Meanings of fields -/

/-- The number of menu items (R103; the image holds the count less one). -/
def MenuEntry.count (e : MenuEntry) : Nat := e.countLess1.toNat + 1
/-- Kind FIXED. -/
def MenuEntry.isFixed (e : MenuEntry) : Bool := e.kind == 1
/-- Kind POPUP. Kind 3 is taken as NONE (R195). -/
def MenuEntry.isPopup (e : MenuEntry) : Bool := e.kind == 2
/-- A defined menu: kind FIXED or POPUP. -/
def MenuEntry.defined (e : MenuEntry) : Bool := e.isFixed || e.isPopup
/-- The owner channel; 4 to 7 are none (R195). -/
def MenuEntry.owner? (e : MenuEntry) : Option HeadNo :=
  if h : e.owner.toNat < 4 then some ⟨e.owner.toNat, h⟩ else none

/-- The actions of R104. -/
inductive ItemAction where
  | report | reportAndCancel | setFilter | togglePattern | trackHere
  deriving DecidableEq, Repr

/-- The action field; 5 to 7 are taken as REPORT (R195). -/
def ItemEntry.act (e : ItemEntry) : ItemAction :=
  match e.action.toNat with
  | 1 => .reportAndCancel
  | 2 => .setFilter
  | 3 => .togglePattern
  | 4 => .trackHere
  | _ => .report

/-- The filter set a SET-FILTER item names: its argument, 0 to 3 in every defined menu of the active bank (R96). -/
def ItemEntry.filterArg (e : ItemEntry) : BitVec 2 := e.arg.setWidth 2

/-- The pattern a TOGGLE-PATTERN item names: its argument, 0 to 15 (R104). -/
def ItemEntry.patternArg (e : ItemEntry) : Fin 16 := e.arg.toFin

/-- The pop-up menu a profile names; 63 is none (section 12.3). -/
def ProfileEntry.popup? (p : ProfileEntry) : Option MenuId := if p.popup = 63 then none else some p.popup

/-- The kinds of R148. -/
inductive PatternKind where
  | none | highlight | blink | blank
  deriving DecidableEq, Repr

/-- A pattern's kind (section 12.3). -/
def PatternEntry.what (p : PatternEntry) : PatternKind :=
  match p.kind.toNat with
  | 1 => .highlight
  | 2 => .blink
  | 3 => .blank
  | _ => .none

/-- The GLOBAL default head: a head number 0 to 3, or none (R11). -/
def GlobalEntry.defaultHead? (g : GlobalEntry) : Option HeadNo :=
  if h : g.defaultHead.toNat < 4 then some ⟨g.defaultHead.toNat, h⟩ else none

/-- Whether a window contains an address (R10). -/
def Window.contains (w : Window) (a : FileAddr) : Bool := w.enable && decide (w.base ≤ a ∧ a ≤ w.limit)

/-- The MENU entry of a menu id; ids 32 to 63 have none (R103). -/
def Bank.menu? (b : Bank) (id : MenuId) : Option MenuEntry := b.menu[id.toNat]?

/-- Item k of a menu: ITEM entry first item index + k (R104). -/
def Bank.item? (b : Bank) (m : MenuEntry) (k : ItemNo) : Option ItemEntry := b.item[m.first.toNat + k.toNat]?

/-- The SCALE entry of a readout view; a view above 15 selects none (R128). -/
def Bank.scale? (b : Bank) (view : NameVal) : Option ScaleEntry := b.scale[view.toNat]?

/-- The source a ring slot names; 6 and 7 name none (R195). -/
def ringSource (code : BitVec 3) : Option Source :=
  if h : code.toNat < 4 then some (.chan ⟨code.toNat, h⟩)
  else if code = 4 then some .reply
  else if code = 5 then some .status
  else none

/-! ## Tables -/

/-- Table codes (section 12.2); 11 to 15 name no table. -/
def TableId.ofCode (c : BitVec 4) : Option TableId :=
  match c.toNat with
  | 0 => some .headmap
  | 1 => some .profile
  | 2 => some .classes
  | 3 => some .filter
  | 4 => some .permit
  | 5 => some .menu
  | 6 => some .item
  | 7 => some .pattern
  | 8 => some .scale
  | 9 => some .ring
  | 10 => some .global
  | _ => none

/-- The table's code. -/
def TableId.code : TableId → Nat
  | .headmap => 0 | .profile => 1 | .classes => 2 | .filter => 3 | .permit => 4 | .menu => 5
  | .item => 6 | .pattern => 7 | .scale => 8 | .ring => 9 | .global => 10

/-- The number of entries of a table (R161). -/
def TableId.size : TableId → Nat
  | .headmap => 4 | .profile => 4 | .classes => 64 | .filter => 4 | .permit => 1024 | .menu => 32
  | .item => 256 | .pattern => 16 | .scale => 16 | .ring => 8 | .global => 1

/-- The words of one entry image (section 12.3). -/
def TableId.words : TableId → Nat
  | .headmap => 6 | .profile => 3 | .classes => 1 | .filter => 6 | .permit => 1 | .menu => 4
  | .item => 2 | .pattern => 7 | .scale => 4 | .ring => 1 | .global => 4

/-- The table after this one in table order (R161). -/
def TableId.next? : TableId → Option TableId
  | .headmap => some .profile | .profile => some .classes | .classes => some .filter
  | .filter => some .permit | .permit => some .menu | .menu => some .item | .item => some .pattern
  | .pattern => some .scale | .scale => some .ring | .ring => some .global | .global => none

/-! ## Entry images (section 12.3): the bits no field occupies are ignored when written and read back as 0 -/

/-- A window from its three words, the first at `i`. -/
def Window.ofWords (ws : List Word) (i : Nat) : Window where
  enable := (wordAt ws i).bit 15
  base := (wordAt ws i).field 4 4 ++ wordAt ws (i + 1)
  limit := (wordAt ws i).field 0 4 ++ wordAt ws (i + 2)

/-- A window's three words. -/
def Window.toWords (w : Window) : List Word :=
  [BitVec.ofBool w.enable ++ (0 : BitVec 7) ++ w.base.extractLsb' 16 4 ++ w.limit.extractLsb' 16 4,
   w.base.setWidth 16, w.limit.setWidth 16]

def HeadMapEntry.ofWords (ws : List Word) : HeadMapEntry := ⟨Window.ofWords ws 0, Window.ofWords ws 3⟩
def HeadMapEntry.toWords (e : HeadMapEntry) : List Word := e.w0.toWords ++ e.w1.toWords

def ProfileEntry.ofWords (ws : List Word) : ProfileEntry where
  g := (wordAt ws 0).field 12 4
  l := (wordAt ws 0).field 8 3
  lagAllocate := (wordAt ws 0).bit 7
  d := (wordAt ws 0).field 4 3
  initFilter := (wordAt ws 0).field 0 2
  k := (wordAt ws 1).field 12 4
  m := (wordAt ws 1).field 8 4
  a := (wordAt ws 1).field 0 8
  popup := (wordAt ws 2).field 8 6
  view := (wordAt ws 2).field 0 4
def ProfileEntry.toWords (e : ProfileEntry) : List Word :=
  [e.g ++ (0 : BitVec 1) ++ e.l ++ BitVec.ofBool e.lagAllocate ++ e.d ++ (0 : BitVec 2) ++ e.initFilter,
   e.k ++ e.m ++ e.a,
   (0 : BitVec 2) ++ e.popup ++ (0 : BitVec 4) ++ e.view]

def ClassEntry.ofWords (ws : List Word) : ClassEntry where
  highlight := (wordAt ws 0).bit 9
  track := (wordAt ws 0).bit 8
  priority := (wordAt ws 0).field 0 3
def ClassEntry.toWords (e : ClassEntry) : List Word :=
  [(0 : BitVec 6) ++ BitVec.ofBool e.highlight ++ BitVec.ofBool e.track ++ (0 : BitVec 5) ++ e.priority]

def FilterEntry.ofWords (ws : List Word) : FilterEntry where
  mask := wordAt ws 3 ++ wordAt ws 2 ++ wordAt ws 1 ++ wordAt ws 0
  other := (wordAt ws 4).bit 15
  refuseShallow := (wordAt ws 4).bit 14
  level := (wordAt ws 4).field 0 3
  limit := (wordAt ws 5).field 0 13
def FilterEntry.toWords (e : FilterEntry) : List Word :=
  [e.mask.extractLsb' 0 16, e.mask.extractLsb' 16 16, e.mask.extractLsb' 32 16, e.mask.extractLsb' 48 16,
   BitVec.ofBool e.other ++ BitVec.ofBool e.refuseShallow ++ (0 : BitVec 11) ++ e.level,
   (0 : BitVec 3) ++ e.limit]

def MenuEntry.ofWords (ws : List Word) : MenuEntry where
  kind := (wordAt ws 0).field 14 2
  owner := (wordAt ws 0).field 8 3
  countLess1 := (wordAt ws 0).field 0 5
  first := (wordAt ws 1).field 0 8
  w := (wordAt ws 2).field 0 12
  h := (wordAt ws 3).field 0 12
def MenuEntry.toWords (e : MenuEntry) : List Word :=
  [e.kind ++ (0 : BitVec 3) ++ e.owner ++ (0 : BitVec 3) ++ e.countLess1,
   (0 : BitVec 8) ++ e.first, (0 : BitVec 4) ++ e.w, (0 : BitVec 4) ++ e.h]

def ItemEntry.ofWords (ws : List Word) : ItemEntry where
  action := (wordAt ws 0).field 13 3
  enabled := (wordAt ws 0).bit 12
  code := (wordAt ws 0).field 0 12
  arg := (wordAt ws 1).field 0 4
def ItemEntry.toWords (e : ItemEntry) : List Word :=
  [e.action ++ BitVec.ofBool e.enabled ++ e.code, (0 : BitVec 12) ++ e.arg]

def PatternLevel.ofWord (w : Word) : PatternLevel := ⟨w.bit 15, w.field 0 12⟩
def PatternLevel.toWord (l : PatternLevel) : Word := BitVec.ofBool l.care ++ (0 : BitVec 3) ++ l.value

def PatternEntry.ofWords (ws : List Word) : PatternEntry where
  kind := (wordAt ws 0).field 14 2
  mask := (wordAt ws 0).field 8 4
  active := (wordAt ws 0).bit 7
  depth := (wordAt ws 0).field 0 3
  levels := #v[.ofWord (wordAt ws 1), .ofWord (wordAt ws 2), .ofWord (wordAt ws 3), .ofWord (wordAt ws 4),
    .ofWord (wordAt ws 5), .ofWord (wordAt ws 6)]
def PatternEntry.toWords (e : PatternEntry) : List Word :=
  (e.kind ++ (0 : BitVec 2) ++ e.mask ++ BitVec.ofBool e.active ++ (0 : BitVec 4) ++ e.depth) ::
    (e.levels.toList.map PatternLevel.toWord)

def ScaleEntry.ofWords (ws : List Word) : ScaleEntry where
  x0 := (wordAt ws 0).field 0 12
  y0 := (wordAt ws 1).field 0 12
  sx := wordAt ws 2
  sy := wordAt ws 3
def ScaleEntry.toWords (e : ScaleEntry) : List Word :=
  [(0 : BitVec 4) ++ e.x0, (0 : BitVec 4) ++ e.y0, e.sx, e.sy]

def ringOfWords (ws : List Word) : BitVec 3 := (wordAt ws 0).field 0 3
def ringToWords (c : BitVec 3) : List Word := [c.setWidth 16]

def GlobalEntry.ofWords (ws : List Word) : GlobalEntry where
  defaultHead := (wordAt ws 0).field 8 3
  dim := (wordAt ws 0).field 0 3
  stall := #v[(wordAt ws 1).field 8 8, (wordAt ws 1).field 0 8, (wordAt ws 2).field 8 8, (wordAt ws 2).field 0 8]
  faultMask := (wordAt ws 3).field 0 12
def GlobalEntry.toWords (e : GlobalEntry) : List Word :=
  [(0 : BitVec 5) ++ e.defaultHead ++ (0 : BitVec 5) ++ e.dim,
   e.stall[0] ++ e.stall[1], e.stall[2] ++ e.stall[3], (0 : BitVec 4) ++ e.faultMask]

/-- Entry `i` of table `t` takes an image in full (R165). -/
def Bank.write (b : Bank) (t : TableId) (i : Nat) (ws : List Word) : Bank :=
  match t with
  | .headmap => { b with headmap := b.headmap.setIfInBounds i (.ofWords ws) }
  | .profile => { b with profile := b.profile.setIfInBounds i (.ofWords ws) }
  | .classes => { b with classes := b.classes.setIfInBounds i (.ofWords ws) }
  | .filter => { b with filter := b.filter.setIfInBounds i (.ofWords ws) }
  | .permit => { b with permit := b.permit.setIfInBounds i (wordAt ws 0) }
  | .menu => { b with menu := b.menu.setIfInBounds i (.ofWords ws) }
  | .item => { b with item := b.item.setIfInBounds i (.ofWords ws) }
  | .pattern => { b with pattern := b.pattern.setIfInBounds i (.ofWords ws) }
  | .scale => { b with scale := b.scale.setIfInBounds i (.ofWords ws) }
  | .ring => { b with ring := b.ring.setIfInBounds i (ringOfWords ws) }
  | .global => if i = 0 then { b with global := .ofWords ws } else b

/-- The image of entry `i` of table `t` (R166); no words where the table has no such entry. -/
def Bank.image (b : Bank) (t : TableId) (i : Nat) : List Word :=
  match t with
  | .headmap => (b.headmap[i]?.map HeadMapEntry.toWords).getD []
  | .profile => (b.profile[i]?.map ProfileEntry.toWords).getD []
  | .classes => (b.classes[i]?.map ClassEntry.toWords).getD []
  | .filter => (b.filter[i]?.map FilterEntry.toWords).getD []
  | .permit => (b.permit[i]?.map fun w => [w]).getD []
  | .menu => (b.menu[i]?.map MenuEntry.toWords).getD []
  | .item => (b.item[i]?.map ItemEntry.toWords).getD []
  | .pattern => (b.pattern[i]?.map PatternEntry.toWords).getD []
  | .scale => (b.scale[i]?.map ScaleEntry.toWords).getD []
  | .ring => (b.ring[i]?.map ringToWords).getD []
  | .global => if i = 0 then b.global.toWords else []

/-- `count` entries from `first` on take the images in ascending order (R165). -/
def Bank.writeAll (b : Bank) (t : TableId) (first : Nat) : Nat → List Word → Bank
  | 0, _ => b
  | n + 1, ws => (b.write t first (ws.take t.words)).writeAll t (first + 1) n (ws.drop t.words)

/-- The images of `count` entries from `first` on, in ascending order (R166). -/
def Bank.images (b : Bank) (t : TableId) (first count : Nat) : List Word :=
  (List.range count).flatMap fun j => b.image t (first + j)

/-- One table of `src` put in the place of the same table of `b` (R167). -/
def Bank.copyTable (b src : Bank) (t : TableId) : Bank :=
  match t with
  | .headmap => { b with headmap := src.headmap }
  | .profile => { b with profile := src.profile }
  | .classes => { b with classes := src.classes }
  | .filter => { b with filter := src.filter }
  | .permit => { b with permit := src.permit }
  | .menu => { b with menu := src.menu }
  | .item => { b with item := src.item }
  | .pattern => { b with pattern := src.pattern }
  | .scale => { b with scale := src.scale }
  | .ring => { b with ring := src.ring }
  | .global => { b with global := src.global }

end Sys2Proof.Machine
end

