-- ==== Sys2Proof/Machine/HeadPort.lean ====
section
/-! DEFINITION. The Head Port (chapter 3): forwarding, completions, the stall timer and the trail. -/

namespace Sys2Proof.Machine

/-- The kind of a record as forwarded (R35). -/
def beamKind : Beam → BeamKind
  | .move _ => .move
  | .draw _ _ => .draw
  | .text _ _ => .text

/-- The visible flag of a record as forwarded: a DRAW or TEXT of intensity 1 to 7 (R36). -/
def beamVisible : Beam → Bool
  | .move _ => false
  | .draw _ i => i != 0
  | .text i _ => i != 0

/-- The beam position after a record is forwarded; also its strike position (R2, R36). -/
def beamEnd (beam : Point) : Beam → Point
  | .move p => p
  | .draw p _ => p
  | .text _ _ => beam

/-- The file address a record carries on the head link (R194). -/
def Origin.linkAddr : Origin → FileAddr
  | .stream a => a
  | _ => 0

def TrailEntry.isSent (e : TrailEntry) : Bool := e.state == .sent
def TrailEntry.isDrawn (e : TrailEntry) : Bool := e.state == .drawn

/-- The number of SENT entries of a trail. -/
def sentCount (t : List TrailEntry) : Nat := t.countP TrailEntry.isSent
/-- The number of DRAWN entries of a trail. -/
def drawnCount (t : List TrailEntry) : Nat := t.countP TrailEntry.isDrawn

/-- The timer started or restarted with a limit just read; a limit of 0 leaves it stopped (R42). -/
def startTimer (limit : Nat) : StallTimer := if limit = 0 then .stopped else .running limit

/-- The stall limit of head `n` (R42). -/
def Bank.stallLimit (b : Bank) (n : HeadNo) : Nat := b.global.stall[n].toNat

/-- The lag depth L of station `n` (R38). -/
def Bank.lag (b : Bank) (n : HeadNo) : Nat := b.profile[n].l.toNat

/-- The trail entry a record makes when it is forwarded with the beam standing at `beam` (R34 to R36). -/
def Prepared.entry (p : Prepared) (beam : Point) : TrailEntry where
  origin := p.origin
  kind := beamKind p.beam
  visible := beamVisible p.beam
  snap := p.snap
  pos := beamEnd beam p.beam
  state := .sent

/-- The record as sent on the head link. -/
def Prepared.record (p : Prepared) : HeadRecord := ⟨p.origin.linkAddr, p.beam⟩

/-- Forwarding one record (R34): one credit, the beam position, one SENT entry, and the timer if the trail held no
SENT entry before (R42). -/
def HeadPort.forward (limit : Nat) (h : HeadPort) (p : Prepared) : HeadPort :=
  { h with
    credit := h.credit - 1
    trail := h.trail ++ [p.entry h.beam]
    timer := if sentCount h.trail = 0 then startTimer limit else h.timer
    beam := beamEnd h.beam p.beam }

/-- Forwarding, in order, as many of the records as the credit allows: what is left waiting, the port afterwards
and the records sent (R14, R15). -/
def HeadPort.pump (limit : Nat) : List Prepared → HeadPort → List Prepared × HeadPort × List HeadRecord
  | [], h => ([], h, [])
  | p :: ps, h =>
    if h.credit = 0 then (p :: ps, h, [])
    else
      let r := HeadPort.pump limit ps (h.forward limit p)
      (r.1, r.2.1, p.record :: r.2.2)

/-- The trail without its oldest `k` DRAWN entries. -/
def dropDrawn : Nat → List TrailEntry → List TrailEntry
  | 0, t => t
  | _ + 1, [] => []
  | k + 1, e :: t => if e.isDrawn then dropDrawn k t else e :: dropDrawn (k + 1) t

/-- The oldest SENT entry completed: it becomes DRAWN if it is visible and leaves if it is not (R38). -/
def retireOldest : List TrailEntry → List TrailEntry
  | [] => []
  | e :: t =>
    if e.isSent then (if e.visible then { e with state := .drawn } :: t else t) else e :: retireOldest t

/-- After a completion: if the trail holds more DRAWN entries than L, the oldest leaves (R38). -/
def ageTrail (lag : Nat) (t : List TrailEntry) : List TrailEntry :=
  if lag < drawnCount t then dropDrawn 1 t else t

/-- A completion taken while UP with a SENT entry (R38, R42). -/
def HeadPort.complete (lag limit : Nat) (h : HeadPort) : HeadPort :=
  let trail := ageTrail lag (retireOldest h.trail)
  { h with
    credit := h.credit + 1
    trail := trail
    timer := if sentCount trail = 0 then .stopped else startTimer limit }

/-- The head goes DOWN (R43). -/
def HeadPort.goDown (h : HeadPort) : HeadPort :=
  { h with state := .down, credit := Config.headCredit, trail := [], timer := .stopped }

/-- RESTART-HEAD at a DOWN head (R46). -/
def HeadPort.restart (h : HeadPort) : HeadPort :=
  { h with state := .up, credit := Config.headCredit, trail := [], timer := .stopped }

/-- The trim of a bank switch: while the trail holds more DRAWN entries than L, the oldest leaves (R47). -/
def trimTrail (lag : Nat) (t : List TrailEntry) : List TrailEntry := dropDrawn (drawnCount t - lag) t

/-- The trim of an UP port (R47); a DOWN port's trail is empty (R45). -/
def HeadPort.trim (lag : Nat) (h : HeadPort) : HeadPort :=
  match h.state with
  | .up => { h with trail := trimTrail lag h.trail }
  | .down => h

/-- The struck set in trail order with its weights: every DRAWN entry at 1 and the entry in drawing, the oldest SENT
entry, at 2 (R54). -/
def struckSet (t : List TrailEntry) : List (TrailEntry × Nat) :=
  (t.filter TrailEntry.isDrawn).map (·, 1) ++ ((t.find? TrailEntry.isSent).map (·, 2)).toList

end Sys2Proof.Machine
end

