-- ==== Sys2Proof/Machine/Flags.lean ====
section
/-! DEFINITION. The fault counts and pending flags (R185) and the live active flags of the patterns (R149). -/

namespace Sys2Proof.Machine

/-- The twelve fault kinds, in the order of R185. -/
inductive FaultKind where
  | framing | unknownRecord | routeMiss | nameGap | menuForm | menuUndefined | itemRange | headDown
  | lateCompletion | strayCompletion | creditOverrun | directiveRefused
  deriving DecidableEq, Repr

/-- A kind's number (R185). -/
def FaultKind.num : FaultKind → Fin 12
  | .framing => 0 | .unknownRecord => 1 | .routeMiss => 2 | .nameGap => 3 | .menuForm => 4
  | .menuUndefined => 5 | .itemRange => 6 | .headDown => 7 | .lateCompletion => 8
  | .strayCompletion => 9 | .creditOverrun => 10 | .directiveRefused => 11

/-- The active bank: the bank the selector names (R160). -/
def State.active (s : State) : Bank :=
  match s.selector with
  | .a => s.bankA
  | .b => s.bankB

/-- The standby bank: the other one (R160). -/
def State.standbyBank (s : State) : Bank :=
  match s.selector with
  | .a => s.bankB
  | .b => s.bankA

/-- The state with another standby bank. -/
def State.setStandbyBank (s : State) (b : Bank) : State :=
  match s.selector with
  | .a => { s with bankB := b }
  | .b => { s with bankA := b }

/-- One fault notice: the count rises by one and stops at 65535; the pending flag is set when the active GLOBAL
mask enables the kind (R185). -/
def State.raise (s : State) (k : FaultKind) : State :=
  { s with
    faultCounts := s.faultCounts.set k.num (satAdd Config.maxFaultCount s.faultCounts[k.num] 1)
    faultPending :=
      if s.active.global.faultMask.getLsbD k.num then s.faultPending.set k.num true else s.faultPending }

/-- Several notices, one after the other. -/
def State.raiseAll (s : State) (ks : List FaultKind) : State := ks.foldl State.raise s

/-- Every pending flag clear. -/
def noPending : Vector Bool 12 := .replicate 12 false

/-- Every live flag takes the initially-active field of its PATTERN entry in the active bank (R149). -/
def State.reloadFlags (s : State) : State := { s with flags := s.active.pattern.map (·.active) }

/-- One live flag inverted (R107, R120). -/
def toggleFlag (flags : Vector Bool 16) (p : Fin 16) : Vector Bool 16 := flags.set p (!flags[p])

end Sys2Proof.Machine
end

