-- ==== Sys2Proof/Machine/Tracker.lean ====
section
/-! DEFINITION. The Context Tracker (chapter 2): what a mark does to one tracker and which faults it raises, and
the context snapshot. -/

namespace Sys2Proof.Machine

/-- The depth of the name path (R20). -/
def Tracker.depth (t : Tracker) : Nat := t.stack.length

/-- A NAME with level `l` and value `v` (R21, R22): levels 1 to l − 1 keep what they held, those that a gap skips
become unknown, level l takes the value and deeper levels become empty. A gap sets the poisoned flag, a NAME at
level 1 clears it (R23). -/
def Tracker.name (t : Tracker) (l : Nat) (v : NameVal) : Tracker × List FaultKind :=
  let stack := t.stack.take (l - 1) ++ List.replicate (l - 1 - t.depth) .unknown ++ [.value v]
  if l ≤ t.depth + 1 then
    ({ t with stack := stack, poisoned := t.poisoned && !decide (l = 1) }, [])
  else ({ t with stack := stack, poisoned := true }, [.nameGap])

/-- The kind a region of menu `id` has, from the MENU table of the active bank (R25). -/
def Bank.regionKind (b : Bank) (id : MenuId) : RegionKind :=
  match b.menu? id with
  | some e => if e.isFixed then .fixed else if e.isPopup then .popup else .undefined
  | none => .undefined

/-- A MENU-OPEN (R25); inside a region it is taken as a MENU-CLOSE followed by a MENU-OPEN (R26). -/
def Tracker.menuOpen (b : Bank) (t : Tracker) (id : MenuId) : Tracker × List FaultKind :=
  let kind := b.regionKind id
  let form : List FaultKind := if t.region = .outside then [] else [.menuForm]
  let undef : List FaultKind := if kind = .undefined then [.menuUndefined] else []
  ({ t with region := .inside id kind none }, form ++ undef)

/-- An ITEM (R27). -/
def Tracker.item (b : Bank) (t : Tracker) (k : ItemNo) : Tracker × List FaultKind :=
  match t.region with
  | .outside => (t, [.menuForm])
  | .inside _ .undefined _ => (t, [])
  | .inside id kind _ =>
    match b.menu? id with
    | some e =>
      if k.toNat < e.count then
        let disabled := ((b.item? e k).map fun i => !i.enabled).getD true
        ({ t with region := .inside id kind (some ⟨k, disabled⟩) }, [])
      else ({ t with region := .inside id kind none }, [.itemRange])
    | none => ({ t with region := .inside id kind none }, [.itemRange])

/-- A MENU-CLOSE (R28). -/
def Tracker.menuClose (t : Tracker) : Tracker × List FaultKind :=
  match t.region with
  | .outside => (t, [.menuForm])
  | .inside .. => ({ t with region := .outside }, [])

/-- A mark taken by one tracker (R19). -/
def Tracker.take (b : Bank) (t : Tracker) : Mark → Tracker × List FaultKind
  | .name l v => t.name l.toNat v
  | .menuOpen id => t.menuOpen b id
  | .item k => t.item b k
  | .menuClose => t.menuClose

/-- The snapshot the tracker hands out (R30). -/
def Tracker.snapshot (t : Tracker) : Snapshot :=
  match t.region with
  | .outside => .name t.stack t.poisoned
  | .inside id kind item => .menu id kind item

/-- The pop-up flag of a menu snapshot: set when the region kind is POPUP (R30). -/
def Snapshot.popup : Snapshot → Bool
  | .menu _ .popup _ => true
  | _ => false

/-- The values of a path's levels, if none is unknown. -/
def pathValues : List LevelVal → Option Path
  | [] => some []
  | .value v :: ls => (pathValues ls).map (v :: ·)
  | .unknown :: _ => none

/-- The name path of a snapshot that can be matched or picked: a name snapshot that is not poisoned. Such a
snapshot has no unknown level (R55). -/
def Snapshot.cleanPath : Snapshot → Option Path
  | .name path false => pathValues path
  | _ => none

end Sys2Proof.Machine
end

