-- ==== Sys2Proof/Machine/Editor.lean ====
section
/-! DEFINITION. The Stream Editor (chapter 9, with the pop-up gating and translation of section 7.4) and the
Readout Converter and slot expansions of chapter 8: what one delivery to one head forwards. -/

namespace Sys2Proof.Machine

/-- The pattern's level values against a path (R151): levels 1 to depth, CARE levels compared. -/
def levelsMatch : List PatternLevel → Path → Bool
  | [], _ => true
  | _ :: _, [] => false
  | l :: ls, v :: vs => (!l.care || l.value == v) && levelsMatch ls vs

/-- Whether a delivery to head `h` with name path `path` matches pattern entry `p`, its live flag aside (R151). -/
def PatternEntry.covers (p : PatternEntry) (h : HeadNo) (path : Path) : Bool :=
  p.mask.getLsbD h && levelsMatch (p.levels.toList.take p.depth.toNat) path

/-- Whether a delivery matches some pattern of a kind whose live flag is set (R151). -/
def Bank.matchesKind (b : Bank) (flags : Vector Bool 16) (kind : PatternKind) (h : HeadNo) (snap : Snapshot) : Bool :=
  match snap.cleanPath with
  | none => false
  | some path => (b.pattern.toList.zip flags.toList).any fun (p, live) => live && p.what == kind && p.covers h path

/-- Whether a delivery matches the highlight slot (R152). -/
def slotMatches (slot : Option Path) (snap : Snapshot) : Bool :=
  match slot, snap.cleanPath with
  | some ident, some path => ident.isPrefixOf path
  | _, _ => false

/-- Whether a delivery is dimmed: a menu snapshot, FIXED or POPUP, of a disabled item (R154). -/
def Snapshot.dimmed : Snapshot → Bool
  | .menu _ .undefined _ => false
  | .menu _ _ (some k) => k.disabled
  | _ => false

/-- The hidden half of the blink cycle: passes 8 to 15 of each run of 16 (R156). -/
def blinkHidden (pass : PassNo) : Bool := decide (8 ≤ pass.toNat % 16)

/-- The edits decided for one delivery (R157): blank, the dim level if dimmed, highlight, and blink in the hidden
half. -/
structure Edits where
  blank : Bool
  dim : Option Intensity
  highlight : Bool
  blink : Bool
  deriving DecidableEq, Repr

/-- To blank a beam record; `none` drops it (R153). -/
def blankBeam : Beam → Option Beam
  | .move p => some (.move p)
  | .draw p _ => some (.move p)
  | .text _ _ => none

/-- A DRAW or TEXT of intensity 1 to 7 takes intensity `level`; of intensity 0 it stays at 0 (R154, R155). -/
def relight (level : Intensity) : Beam → Beam
  | .move p => .move p
  | .draw p i => .draw p (if i = 0 then 0 else level)
  | .text i cs => .text (if i = 0 then 0 else level) cs

/-- The edits of one delivery in their order of precedence (R157). -/
def Edits.apply (e : Edits) (r : Beam) : Option Beam :=
  if e.blank then blankBeam r
  else
    let dimmed := match e.dim with
      | some level => relight level r
      | none => r
    let lit := if e.highlight then relight 7 dimmed else dimmed
    if e.blink then blankBeam lit else some lit

/-- The decision of the Stream Editor for head `h` (R147, R157). -/
def decideEdits (b : Bank) (flags : Vector Bool 16) (slot : Option Path) (pass : PassNo) (h : HeadNo)
    (snap : Snapshot) : Edits where
  blank := b.matchesKind flags .blank h snap
  dim := if snap.dimmed then some b.global.dim else none
  highlight := b.matchesKind flags .highlight h snap || slotMatches slot snap
  blink := b.matchesKind flags .blink h snap && blinkHidden pass

/-- The anchor at which a record of this snapshot is shown at head `h`: `none` where the record is dropped by
pop-up gating (R112), `some none` where it is outside every POPUP region and keeps its coordinates. -/
def gate (b : Bank) (c : PenChannel) (h : HeadNo) (snap : Snapshot) : Option (Option Point) :=
  match snap with
  | .menu id .popup _ =>
    match c.state with
    | .popup p =>
      if (b.menu? id).bind MenuEntry.owner? = some h && p.menu == id then some (some p.anchor) else none
    | _ => none
  | _ => some none

/-- A record of a pop-up region moved to the anchor (R114). -/
def translate (a : Point) : Beam → Beam
  | .move p => .move (clampPoint (p.x.toInt + a.x.toInt) (p.y.toInt + a.y.toInt))
  | .draw p i => .draw (clampPoint (p.x.toInt + a.x.toInt) (p.y.toInt + a.y.toInt)) i
  | .text i cs => .text i cs

/-- What the delivery of a beam record forwards to head `h`: one record or none (R147). -/
def prepareBeam (b : Bank) (flags : Vector Bool 16) (c : PenChannel) (pass : PassNo) (h : HeadNo) (snap : Snapshot)
    (addr : FileAddr) (r : Beam) : List Prepared :=
  match gate b c h snap with
  | none => []
  | some anchor =>
    let placed := match anchor with
      | some a => translate a r
      | none => r
    match (decideEdits b flags c.highlight pass h snap).apply placed with
    | some r' => [⟨r', .stream addr, snap⟩]
    | none => []

/-! ## The cross (section 8.2) -/

/-- The point `k` units from the centre along an arm, clamped to the screen (R132). -/
def armPoint (c : Point) (k : Int) : Arm → Point
  | .e => clampPoint (c.x.toInt + k) c.y.toInt
  | .n => clampPoint c.x.toInt (c.y.toInt + k)
  | .w => clampPoint (c.x.toInt - k) c.y.toInt
  | .s => clampPoint c.x.toInt (c.y.toInt - k)

/-- The three records of one arm (R132). -/
def armRecords (c : Point) (a : Nat) (arm : Arm) : List (Beam × Origin) :=
  [(.move c, .cross arm none),
   (.draw (armPoint c (a / 2 : Nat) arm) 7, .cross arm (some .inner)),
   (.draw (armPoint c a arm) 7, .cross arm (some .outer))]

/-- The twelve records of a cross of arm length `a` about `c`: E, N, W, S (R132). -/
def crossRecords (c : Point) (a : Nat) : List (Beam × Origin) :=
  armRecords c a .e ++ armRecords c a .n ++ armRecords c a .w ++ armRecords c a .s

/-! ## The readout (section 8.5) -/

/-- Signed eighths of one coordinate: (p − origin) × scale / 256, truncated toward zero; none for a scale of 0
(R142). -/
def eighths (p origin : Coord) (scale : Word) : Option Int :=
  if scale = 0 then none else some (((p.toInt - origin.toInt) * (scale.toNat : Int)).tdiv 256)

/-- The eighths of both axes of a position with a readout view (R142). -/
def readoutEighths (b : Bank) (view : NameVal) (p : Point) : Option Int × Option Int :=
  match b.scale? view with
  | some e => (eighths p.x e.x0 e.sx, eighths p.y e.y0 e.sy)
  | none => (none, none)

/-- The feet of an eighths value (R143). -/
def feet (e : Int) : Nat := e.natAbs / 96

/-- The overflow flag: the eighths are present and their feet exceed 999 (R138, R143). -/
def overflow : Option Int → Bool
  | some e => decide (999 < feet e)
  | none => false

/-- A digit's code (section 12.5). -/
def digit (n : Nat) : Char8 := BitVec.ofNat 8 (48 + n % 10)

/-- The ten characters of one axis: letter, sign, feet, hyphen, inches, hyphen, eighths (R143, section 12.5). -/
def axisField (letter : Char8) : Option Int → List Char8
  | none => [letter, 43, 63, 63, 63, 45, 63, 63, 45, 63]
  | some e =>
    let sign : Char8 := if e < 0 then 45 else 43
    if 999 < feet e then [letter, sign, 42, 42, 42, 45, 42, 42, 45, 42]
    else
      let inches := e.natAbs % 96 / 8
      [letter, sign, digit (feet e / 100), digit (feet e / 10), digit (feet e), 45, digit (inches / 10),
       digit inches, 45, digit (e.natAbs % 8)]

/-- The 21 characters of the readout (R143): the x field, a space, the y field. -/
def readoutText (b : Bank) (view : NameVal) (p : Point) : List Char8 :=
  axisField 88 (readoutEighths b view p).1 ++ [32] ++ axisField 89 (readoutEighths b view p).2

/-- The two records of a readout at point `at` (R141). -/
def readoutRecords (b : Bank) (t : Tracking) (point : Point) : List (Beam × Origin) :=
  [(.move point, .readout), (.text 7 (readoutText b t.view t.pos), .readout)]

/-- The records of a slot's expansion for the head of a tracking channel, before editing (R132, R141). -/
def expansion (b : Bank) (h : HeadNo) (t : Tracking) : Slot → List (Beam × Origin)
  | .cross => crossRecords t.pos b.profile[h].a.toNat
  | .readout p => readoutRecords b t p

/-- What the delivery of a slot record forwards to head `h`: the expansion under one decision (R158) when the
channel is in TRACK and the slot is not gated (R15, R112), else nothing. -/
def prepareSlot (b : Bank) (flags : Vector Bool 16) (c : PenChannel) (pass : PassNo) (h : HeadNo) (snap : Snapshot)
    (slot : Slot) : List Prepared :=
  match c.state, gate b c h snap with
  | .track t, some _ =>
    let e := decideEdits b flags c.highlight pass h snap
    (expansion b h t slot).filterMap fun (r, o) => (e.apply r).map fun r' => ⟨r', o, snap⟩
  | _, _ => []

end Sys2Proof.Machine
end

