-- ==== Sys2Proof/Machine/Lookup.lean ====
section
/-! DEFINITION. The Filter and Class Lookup (chapter 6): its two questions, answered from one bank. -/

namespace Sys2Proof.Machine

/-- A path's family within the 64 of the mask: its value at level 2, when that is 0 to 63; else none, an "other"
path (R92). -/
def family? (path : Path) : Option (Fin 64) :=
  match path with
  | _ :: v :: _ => if h : v.toNat < 64 then some ⟨v.toNat, h⟩ else none
  | _ => none

/-- The family test of R92. -/
def FilterEntry.familyTest (f : FilterEntry) (path : Path) : Bool :=
  match family? path with
  | some v => f.mask.getLsbD v
  | none => f.other

/-- The permission mark of a value in filter set `s`: place `v mod 16` of PERMIT word `s × 256 + v div 16`
(R94). -/
def Bank.permitMark (b : Bank) (s : BitVec 2) (v : NameVal) : Bool :=
  ((b.permit[s.toNat * 256 + v.toNat / 16]?).getD 0).getLsbD (v.toNat % 16)

/-- The level test of R93, on the full path. -/
def Bank.levelTest (b : Bank) (s : BitVec 2) (path : Path) : Bool :=
  let f := b.filter[s.toFin]
  if f.level.toNat ≤ path.length then
    let v := path.getD (f.level.toNat - 1) 0
    decide (v.toNat < f.limit.toNat) && !b.permitMark s v
  else !f.refuseShallow

/-- Does this name path pass filter set `s` (R95)? -/
def Bank.passes (b : Bank) (s : BitVec 2) (path : Path) : Bool :=
  b.filter[s.toFin].familyTest path && b.levelTest s path

/-- The class of a name path; an "other" path has priority 0 and both flags clear (R100). -/
def Bank.classOf (b : Bank) (path : Path) : ClassEntry :=
  match family? path with
  | some f => b.classes[f]
  | none => { highlight := false, track := false, priority := 0 }

end Sys2Proof.Machine
end

