-- ==== Sys2Proof/Machine/Ops.lean ====
section
/-! DEFINITION. The named operations over the state that every family uses: what a Pen Channel may touch (its desk)
and what it may read (its view), report offers (R80), the candidate table and replacement tree (R69 to R72), and
the deliveries of the record in hand (R13, R17, R113). -/

namespace Sys2Proof.Machine

/-! ## What a channel touches and reads -/

/-- What an event at a Pen Channel may change: the channel, its report queue, and the live flags (a TOGGLE-PATTERN
choice, R107). -/
structure Desk where
  chan : PenChannel
  queue : List ChannelReport
  flags : Vector Bool 16
  deriving DecidableEq, Repr

/-- What an event at a Pen Channel may read: its number, the active bank, the pass counter and its own Head Port
(R53). -/
structure View where
  n : HeadNo
  bank : Bank
  pass : PassNo
  port : HeadPort
  deriving DecidableEq, Repr

/-- The channel's PROFILE entry in the active bank, read afresh at each use (R65). -/
def View.profile (v : View) : ProfileEntry := v.bank.profile[v.n]

/-- The desk with another channel state. -/
def Desk.setState (d : Desk) (st : ChanState) : Desk := { d with chan := { d.chan with state := st } }

/-- The view of channel `n` as the part stands. -/
def State.view (s : State) (n : HeadNo) : View := ⟨n, s.active, s.passCount, s.ports[n]⟩

/-- The desk of channel `n` as the part stands. -/
def State.desk (s : State) (n : HeadNo) : Desk := ⟨s.chans[n], s.queues[n], s.flags⟩

/-- Whether the channel state is POPUP. -/
def ChanState.isPopup : ChanState → Bool
  | .popup _ => true
  | _ => false

/-- The deliveries to head `n` of records of a POPUP region end unforwarded (R113). -/
def InHand.endPopup (n : HeadNo) : InHand → InHand
  | .deliver r w => .deliver r (w.set n (w[n].filter fun p => !p.snap.popup))
  | .directive h d => .directive h d

/-- Every delivery to head `n` ends unforwarded (R17). -/
def InHand.endHead (n : HeadNo) : InHand → InHand
  | .deliver r w => .deliver r (w.set n [])
  | .directive h d => .directive h d

/-- Channel `n`'s desk put back. When the channel has left POPUP, the waiting deliveries of its pop-up region end
(R113). -/
def State.putDesk (s : State) (n : HeadNo) (d : Desk) : State :=
  { s with
    chans := s.chans.set n d.chan
    queues := s.queues.set n d.queue
    flags := d.flags
    inHand :=
      if s.chans[n].state.isPopup && !d.chan.state.isPopup then s.inHand.map (InHand.endPopup n) else s.inHand }

/-- An event at Pen Channel `n`. -/
def State.onDesk (s : State) (n : HeadNo) (f : View → Desk → Desk) : State :=
  s.putDesk n (f (s.view n) (s.desk n))

/-- Head Port `n` replaced. -/
def State.setPort (s : State) (n : HeadNo) (p : HeadPort) : State := { s with ports := s.ports.set n p }

/-! ## The candidate table and the replacement tree -/

/-- Every entry invalid, the tree at its initial marks, the gather count 0 and the crowded flag clear (R68, R73,
R77). -/
def PenChannel.clearTable (c : PenChannel) : PenChannel :=
  { c with table := .replicate 4 none, tree := Tree.init, gather := 0, crowded := false }

/-- The table holds at least one valid entry. -/
def PenChannel.anyCandidate (c : PenChannel) : Bool := c.table.toList.any Option.isSome

/-- To touch an entry (R70). -/
def Tree.touch (t : Tree) (e : Fin 4) : Tree :=
  if e.val < 2 then { t with p := .low, q1 := e.val == 1 } else { t with p := .high, r3 := e.val == 3 }

/-- The tree's victim: in the pair that P does not name, the entry its mark does not name (R70). -/
def Tree.victim (t : Tree) : Fin 4 :=
  match t.p with
  | .high => if t.q1 then 0 else 1
  | .low => if t.r3 then 2 else 3

/-- The re-check of R97: a valid PICK entry whose sample path the filter set refuses becomes invalid. -/
def recheckTable (b : Bank) (set : BitVec 2) (table : Vector (Option Candidate) 4) : Vector (Option Candidate) 4 :=
  table.map fun e => e.filter fun c =>
    match c.ident with
    | .pick _ => b.passes set (c.sample.getD [])
    | .menu _ _ => true

/-! ## Reports and tracks -/

/-- A track at its start (R129). -/
def Tracking.start (pos : Point) (view : NameVal) : Tracking :=
  { pos := pos, arms := .empty, miss := 0, view := view, update := none }

/-- The channel state a successor stands for (R80). -/
def Successor.enter : Successor → ChanState
  | .idle => .idle
  | .held => .held
  | .track pos view => .track (.start pos view)

/-- The queue has a free place (R181). -/
def Desk.room (d : Desk) : Bool := decide (d.queue.length < Config.queuePlaces)

/-- To offer a report other than TRACK with a successor: appended, and the channel enters the successor; or, the
queue being full, held, and the channel enters WAIT (R80). -/
def Desk.offer (d : Desk) (r : ChannelReport) (succ : Successor) : Desk :=
  if d.room then { d.setState succ.enter with queue := d.queue ++ [r] } else d.setState (.wait r succ)

/-- HELD if the tip level is down, else IDLE (R83, R119, R136). -/
def heldIfDown : Tip → Successor
  | .down => .held
  | .up => .idle

/-- The recorded successor reconciled with the tip level at leaving WAIT (R82). -/
def Successor.reconcile : Successor → Tip → Successor
  | .held, .down => .held
  | .track pos view, .down => .track pos view
  | _, _ => .idle

/-! ## The reply queue -/

/-- Occupied spaces: finished replies and the reservation (R180). -/
def State.replySpacesUsed (s : State) : Nat := s.replies.length + (if s.reserved then 1 else 0)

/-- The reply queue has a free space, "counting reservations as occupied" (R16). -/
def State.replyRoom (s : State) : Bool := decide (s.replySpacesUsed < Config.replySpaces)

/-- A finished REPLY appended at the youngest end (R183). -/
def State.addReply (s : State) (r : Reply) : State := { s with replies := s.replies ++ [r] }

end Sys2Proof.Machine
end

