-- ==== Sys2Proof/Machine/Tracking.lean ====
section
/-! DEFINITION. Tracking (chapter 8): arm hits, the pass-end update, TRACK reports and the track's ends. -/

namespace Sys2Proof.Machine

/-- The greater of two arm levels: outer over inner over none (R134). -/
def ArmLevel.sup : ArmLevel → ArmLevel → ArmLevel
  | .outer, _ => .outer
  | _, .outer => .outer
  | .inner, _ => .inner
  | _, .inner => .inner
  | .none, .none => .none

/-- The level a struck entry gives one arm: it counts when its origin is CROSS, it is visible and it has a segment
(R60). -/
def TrailEntry.armLevel (e : TrailEntry) (a : Arm) : ArmLevel :=
  match e.origin with
  | .cross arm (some seg) =>
    if e.visible && arm == a then (match seg with | .inner => .inner | .outer => .outer) else .none
  | _ => .none

/-- The level a strike hands on for one arm (R60). -/
def armOf (struck : List (TrailEntry × Nat)) (a : Arm) : ArmLevel :=
  struck.foldl (fun l x => l.sup (x.1.armLevel a)) .none

/-- The arm set raised by a strike (R134). -/
def Arms.raise (arms : Arms) (struck : List (TrailEntry × Nat)) : Arms where
  e := arms.e.sup (armOf struck .e)
  n := arms.n.sup (armOf struck .n)
  w := arms.w.sup (armOf struck .w)
  s := arms.s.sup (armOf struck .s)

/-- The motion on one axis for arm length `a`, from the arm toward which it increases and the arm toward which it
decreases (R135). -/
def axisMotion (a : Nat) : ArmLevel → ArmLevel → Int
  | .outer, .none => (a / 2 : Nat)
  | .inner, .none => (a / 4 : Nat)
  | .none, .outer => -((a / 2 : Nat) : Int)
  | .none, .inner => -((a / 4 : Nat) : Int)
  | _, _ => 0

/-- The position after the pass-end update (R135). -/
def Tracking.moved (t : Tracking) (a : Nat) : Point :=
  clampPoint (t.pos.x.toInt + axisMotion a t.arms.e t.arms.w) (t.pos.y.toInt + axisMotion a t.arms.n t.arms.s)

/-- A TRACK report built for a position (R138). -/
def trackReport (b : Bank) (pass : PassNo) (view : NameVal) (pos : Point) : TrackReport where
  pass := pass
  pos := pos
  x := (readoutEighths b view pos).1
  y := (readoutEighths b view pos).2
  xOverflow := overflow (readoutEighths b view pos).1
  yOverflow := overflow (readoutEighths b view pos).2

/-- The report is a TRACK report. -/
def ChannelReport.isTrack : ChannelReport → Bool
  | .track _ => true
  | _ => false

/-- A queued TRACK report's contents replaced, in its place (R139). -/
def replaceTrack (r : TrackReport) : List ChannelReport → List ChannelReport
  | [] => []
  | q :: qs => if q.isTrack then .track r :: qs else q :: replaceTrack r qs

/-- To offer a TRACK report (R139): the queue afterwards and the pending update afterwards. -/
def offerTrack (queue : List ChannelReport) (update : Option TrackReport) (r : TrackReport) :
    List ChannelReport × Option TrackReport :=
  if queue.any ChannelReport.isTrack then (replaceTrack r queue, update)
  else if queue.length < Config.queuePlaces then (queue ++ [.track r], update)
  else (queue, some r)

/-- The pass-end update of a track (R135, R136) at the notice of pass `pass`. -/
def trackPassEnd (v : View) (pass : PassNo) (t : Tracking) (d : Desk) : Desk :=
  let pos := t.moved v.profile.a.toNat
  let offered :=
    if pos = t.pos then (d.queue, t.update) else offerTrack d.queue t.update (trackReport v.bank pass t.view pos)
  let d1 := { d with queue := offered.1 }
  if t.arms = Arms.empty then
    if v.profile.k.toNat ≤ t.miss + 1 then d1.offer (.trackLost pos) (heldIfDown d.chan.tip)
    else d1.setState (.track { t with pos := pos, miss := t.miss + 1, update := offered.2 })
  else d1.setState (.track { t with pos := pos, arms := .empty, miss := 0, update := offered.2 })

end Sys2Proof.Machine
end

