-- ==== Sys2Proof/Machine/Strike.lean ====
section
/-! DEFINITION. What a strike does (chapter 4) and how its hit list enters the candidate table (section 5.3) or the
pop-up tally (R116). -/

namespace Sys2Proof.Machine

/-- An element of a hit list (R58). The from-drawing mark is set when the weight is 2. -/
structure Hit where
  ident : Identity
  weight : Nat
  sample : Option Path
  addr : FileAddr
  pos : Point
  pass : PassNo
  deriving DecidableEq, Repr

/-- The identity cut to its first D levels (R55). -/
def cutPath (d : Nat) (path : Path) : Path := path.take d

/-- The identity an entry of the struck set yields in GATHER, with its sample path and file address: a PICK identity
(R55), a MENU identity (R56), or nothing (R57). -/
def TrailEntry.yields (b : Bank) (depth : Nat) (set : BitVec 2) (e : TrailEntry) :
    Option (Identity × Option Path × FileAddr) :=
  match e.visible, e.origin, e.snap with
  | true, .stream addr, .name .. =>
    match e.snap.cleanPath with
    | some path =>
      if 1 ≤ path.length && b.passes set path then some (.pick (cutPath depth path), some path, addr) else none
    | none => none
  | true, .stream addr, .menu id .fixed (some k) =>
    if k.disabled then none else some (.menu id k.number, none, addr)
  | _, _, _ => none

/-- One element put into the hit list: a new identity at the end; a greater weight replaces the weight and the
representative, in place (R58). -/
def addHit (h : Hit) : List Hit → List Hit
  | [] => [h]
  | x :: xs => if x.ident = h.ident then (if x.weight < h.weight then h :: xs else x :: xs) else x :: addHit h xs

/-- The hit list of a strike in GATHER (R58). -/
def hitList (v : View) (set : BitVec 2) : List Hit :=
  (struckSet v.port.trail).foldl
    (fun l x =>
      match x.1.yields v.bank v.profile.d.toNat set with
      | some (ident, sample, addr) => addHit ⟨ident, x.2, sample, addr, x.1.pos, v.pass⟩ l
      | none => l) []

/-- The valid entry that has an identity. -/
def findEntry (table : Vector (Option Candidate) 4) (ident : Identity) : Option (Fin 4) :=
  allHeads.find? fun i => (table[i].map (·.ident)) == some ident

/-- The lowest-numbered invalid entry. -/
def firstInvalid (table : Vector (Option Candidate) 4) : Option (Fin 4) :=
  allHeads.find? fun i => table[i].isNone

/-- A hit on a valid entry (R71). -/
def Candidate.hit (c : Candidate) (h : Hit) : Candidate :=
  { c with
    hits := satAdd Config.maxHits c.hits h.weight
    passesSeen := if c.lastPass = h.pass then c.passesSeen else satAdd Config.maxHits c.passesSeen 1
    lastPass := h.pass }

/-- The entry a new identity allocates (R72). -/
def Hit.candidate (h : Hit) : Candidate where
  ident := h.ident
  sample := h.sample
  addr := h.addr
  pos := h.pos
  hits := h.weight
  passesSeen := 1
  lastPass := h.pass

/-- One element of a hit list taken by the candidate table (R71, R72). -/
def PenChannel.takeHit (lagAllocate : Bool) (c : PenChannel) (h : Hit) : PenChannel :=
  match findEntry c.table h.ident with
  | some i => { c with table := c.table.set i (c.table[i].map (·.hit h)), tree := c.tree.touch i }
  | none =>
    if h.weight = 2 || lagAllocate then
      match firstInvalid c.table with
      | some i => { c with table := c.table.set i (some h.candidate), tree := c.tree.touch i }
      | none =>
        let i := c.tree.victim
        { c with table := c.table.set i (some h.candidate), tree := c.tree.touch i, crowded := true }
    else c

/-- The position a strike with a non-empty struck set gives: the entry in drawing's, else the youngest DRAWN
entry's (R62). -/
def strikePoint (struck : List (TrailEntry × Nat)) : Option Point := struck.getLast?.map (·.1.pos)

/-- The last strike position after a strike in IDLE, GATHER or HELD (R62). -/
def PenChannel.moveStrike (c : PenChannel) (struck : List (TrailEntry × Nat)) : PenChannel :=
  match strikePoint struck with
  | some p => { c with lastStrike := some p }
  | none => c

/-- The item a struck entry counts for in the tally of pop-up menu `menu` (R59). -/
def TrailEntry.tallyItem (menu : MenuId) (e : TrailEntry) : Option ItemNo :=
  match e.visible, e.origin, e.snap with
  | true, .stream _, .menu id .popup (some k) => if id = menu && !k.disabled then some k.number else none
  | _, _, _ => none

/-- One item hit put into the list of item hits, each item at its greatest weight (R59). -/
def addItemHit (k : ItemNo) (w : Nat) : List (ItemNo × Nat) → List (ItemNo × Nat)
  | [] => [(k, w)]
  | x :: xs => if x.1 = k then (k, max x.2 w) :: xs else x :: addItemHit k w xs

/-- The item hits of a strike in POPUP (R59). -/
def itemHits (menu : MenuId) (struck : List (TrailEntry × Nat)) : List (ItemNo × Nat) :=
  struck.foldl (fun l x => match x.1.tallyItem menu with | some k => addItemHit k x.2 l | none => l) []

/-- The tally raised by a list of item hits (R116). -/
def raiseTally (tally : Vector Nat 32) (hits : List (ItemNo × Nat)) : Vector Nat 32 :=
  hits.foldl (fun t x => t.set x.1.toFin (satAdd Config.maxHits t[x.1.toFin] x.2)) tally

/-- A STRIKE offered to the channel state (R53, R59 to R62). -/
def strikeOffered (v : View) (d : Desk) : Desk :=
  let struck := struckSet v.port.trail
  match v.port.state, d.chan.state with
  | .down, _ => d
  | .up, .idle | .up, .held => { d with chan := d.chan.moveStrike struck }
  | .up, .gather =>
    let c := (hitList v d.chan.filterSet).foldl (PenChannel.takeHit v.profile.lagAllocate) d.chan
    { d with chan := c.moveStrike struck }
  | .up, .track t => d.setState (.track { t with arms := t.arms.raise struck })
  | .up, .popup p =>
    match d.chan.button with
    | .held => d.setState (.popup { p with tally := raiseTally p.tally (itemHits p.menu struck) })
    | .released => d
  | .up, .off | .up, .wait .. => d

end Sys2Proof.Machine
end

