-- ==== Sys2Proof/Machine/Attempts.lean ====
section
/-! DEFINITION. Pick attempts (chapter 5): the resolution, the fixed-menu choice (section 7.2) and the tip events of
every state but POPUP. -/

namespace Sys2Proof.Machine

/-! ## The resolution order (R76) -/

/-- The class priority of a candidate's sample path; a MENU entry has no class (R101). -/
def Candidate.priority (b : Bank) (c : Candidate) : Nat :=
  match c.ident with
  | .pick _ => (b.classOf (c.sample.getD [])).priority.toNat
  | .menu _ _ => 0

/-- Keys 1 to 5 of R76, greater preferred. Two entries with equal key 3 are of one kind, and two MENU entries have
equal fourth keys, so key 4 compares PICK entries only. -/
def Candidate.keys (b : Bank) (c : Candidate) : List Nat :=
  [c.hits, c.passesSeen, (match c.ident with | .menu _ _ => 1 | .pick _ => 0), c.priority b, c.lastPass.toNat]

/-- The first key that differs decides. -/
def keysLess : List Nat → List Nat → Bool
  | x :: xs, y :: ys => x < y || (x == y && keysLess xs ys)
  | _, _ => false

/-- The first candidate of the order among a list in entry order: a later entry goes before an earlier one only
where some key of 1 to 5 prefers it (key 6, R76). -/
def firstOf (b : Bank) : List Candidate → Option Candidate
  | [] => none
  | c :: cs =>
    match firstOf b cs with
    | some best => if keysLess (c.keys b) (best.keys b) then some best else some c
    | none => some c

/-- The valid entries in entry order. -/
def PenChannel.candidates (c : PenChannel) : List Candidate := c.table.toList.filterMap id

/-- The winner (R76). -/
def PenChannel.winner (b : Bank) (c : PenChannel) : Option Candidate := firstOf b c.candidates

/-- The runner-up: the first of the rest, when there is one (R76). -/
def PenChannel.runnerUp (b : Bank) (c : PenChannel) (w : Candidate) : Option Candidate :=
  firstOf b (c.candidates.erase w)

/-- The close-call flag: there is a runner-up whose hits are at least the winner's minus 1 (R77). -/
def closeCall (w : Candidate) : Option Candidate → Bool
  | some r => decide (w.hits ≤ r.hits + 1)
  | none => false

/-- Which kind of resolution (R74, R75). -/
inductive Resolution where
  | passEnd | release
  deriving DecidableEq, Repr

/-- The class of a PICK winner (R78). -/
def Candidate.cls (b : Bank) (c : Candidate) : ClassEntry := b.classOf (c.sample.getD [])

/-- The successor of a PICK report (R78). -/
def pickSuccessor (k : Resolution) (cls : ClassEntry) (tip : Tip) (w : Candidate) : Successor :=
  match k, tip with
  | .release, _ => .idle
  | .passEnd, .down => if cls.track then .track w.pos ((w.sample.getD []).headD 0) else .held
  | .passEnd, .up => .held

/-- The PICK report of a winner (R77). -/
def pickReport (b : Bank) (pass : PassNo) (w : Candidate) (path : Path) (close crowded : Bool) : PickReport where
  pass := pass
  path := path
  addr := w.addr
  hits := w.hits
  passesSeen := w.passesSeen
  priority := (w.cls b).priority
  pos := w.pos
  closeCall := close
  crowded := crowded

/-! ## The fixed-menu choice -/

/-- The ITEM entry of a good fixed-menu choice (R106); none for a void one. -/
def Bank.fixedItem? (b : Bank) (m : MenuId) (k : ItemNo) : Option ItemEntry :=
  match b.menu? m with
  | some e => if e.isFixed && decide (k.toNat < e.count) then (b.item? e k).filter (·.enabled) else none
  | none => none

/-- SET-FILTER: the active filter set becomes the argument and the table is re-checked (R99). -/
def PenChannel.setFilter (b : Bank) (c : PenChannel) (set : BitVec 2) : PenChannel :=
  { c with filterSet := set, table := recheckTable b set c.table }

/-- The action of a good fixed-menu choice (R107). -/
def fixedAction (b : Bank) (d : Desk) (i : ItemEntry) : Desk :=
  match i.act with
  | .setFilter => { d with chan := d.chan.setFilter b i.filterArg }
  | .togglePattern => { d with flags := toggleFlag d.flags i.patternArg }
  | .report | .reportAndCancel | .trackHere => d

/-- The resolution's end for a MENU winner (R79, R106, R107), the table already cleared. -/
def resolveMenu (v : View) (k : Resolution) (pass : PassNo) (w : Candidate) (m : MenuId) (it : ItemNo)
    (close crowded : Bool) (d : Desk) : Desk :=
  let good := v.bank.fixedItem? m it
  let report : MenuReport :=
    { pass := pass, menu := m, item := it, code := good.map (·.code), source := .fixed w.hits close crowded }
  let d1 := d.offer (.menu report) (match k with | .passEnd => .held | .release => .idle)
  match good with
  | some i => fixedAction v.bank d1 i
  | none => d1

/-- The resolution's end for a PICK winner (R77, R78), the table already cleared. -/
def resolvePick (v : View) (k : Resolution) (pass : PassNo) (w : Candidate) (path : Path) (close crowded : Bool)
    (d : Desk) : Desk :=
  let cls := w.cls v.bank
  let d1 := if cls.highlight then { d with chan := { d.chan with highlight := some path } } else d
  d1.offer (.pick (pickReport v.bank pass w path close crowded)) (pickSuccessor k cls d.chan.tip w)

/-- A resolution (R76 to R79) reporting pass `pass`. -/
def resolve (v : View) (k : Resolution) (pass : PassNo) (d : Desk) : Desk :=
  match d.chan.winner v.bank with
  | none => d
  | some w =>
    let close := closeCall w (d.chan.runnerUp v.bank w)
    let cleared := { d with chan := d.chan.clearTable }
    match w.ident with
    | .pick path => resolvePick v k pass w path close d.chan.crowded cleared
    | .menu m it => resolveMenu v k pass w m it close d.chan.crowded cleared

/-! ## The gather window and the tip -/

/-- A pass-end notice in GATHER (R74). -/
def gatherPassEnd (v : View) (pass : PassNo) (d : Desk) : Desk :=
  if d.chan.anyCandidate then
    let d1 := { d with chan := { d.chan with gather := d.chan.gather + 1 } }
    if v.profile.g.toNat ≤ d.chan.gather + 1 then resolve v .passEnd pass d1 else d1
  else d

/-- A TIP-UP in GATHER: a release resolution, or a MISS (R75). -/
def gatherTipUp (v : View) (d : Desk) : Desk :=
  if d.chan.anyCandidate then resolve v .release v.pass d
  else { d with chan := d.chan.clearTable }.offer (.miss v.pass) .idle

/-- The start of a pick attempt (R68). -/
def PenChannel.beginAttempt (c : PenChannel) : PenChannel :=
  { c.clearTable with state := .gather, highlight := none }

/-- A TIP-UP offered to the channel state (R52, R68, R75, R109, R137); the level has been set before. -/
def tipUpOffered (v : View) (d : Desk) : Desk :=
  match v.port.state, d.chan.state with
  | .down, _ => d
  | .up, .gather => gatherTipUp v d
  | .up, .held => d.setState .idle
  | .up, .track t => d.offer (.trackEnd t.pos) .idle
  | .up, .popup p => d.setState (.popup { p with slot := { p.slot with note := true } })
  | .up, .off | .up, .idle | .up, .wait .. => d

/-- A TIP-DOWN offered to the channel state (R52, R68). -/
def tipDownOffered (v : View) (d : Desk) : Desk :=
  match v.port.state, d.chan.state with
  | .down, _ => d
  | .up, .idle => { d with chan := d.chan.beginAttempt }
  | .up, .off | .up, .gather | .up, .held | .up, .track _ | .up, .popup _ | .up, .wait .. => d

/-- A TIP-DOWN: the level first, then the offer. A tip already down makes no event (R50; log entry 5). -/
def tipDown (v : View) (d : Desk) : Desk :=
  match d.chan.tip with
  | .down => d
  | .up => tipDownOffered v { d with chan := { d.chan with tip := .down } }

/-- A TIP-UP: the level first, then the offer. A tip already up makes no event (R50; log entry 5). -/
def tipUp (v : View) (d : Desk) : Desk :=
  match d.chan.tip with
  | .up => d
  | .down => tipUpOffered v { d with chan := { d.chan with tip := .up } }

end Sys2Proof.Machine
end

