-- ==== Sys2Proof/Machine/Popups.lean ====
section
/-! DEFINITION. Pop-up menus (chapter 7): opening, the choice, restore, reconciliation, cancel, and the button. -/

namespace Sys2Proof.Machine

/-! ## Opening (section 7.3) -/

/-- An anchor clamped against a menu's extent (R110). -/
def clampAnchor (w h : BitVec 12) (p : Point) : Point where
  x := clampCoord (min p.x.toInt (2047 - (w.toNat : Int)))
  y := clampCoord (max p.y.toInt (-2048 + (h.toNat : Int)))

/-- The anchor clamped against the extent of MENU entry `m` of a bank. -/
def Bank.clampAnchor (b : Bank) (m : MenuId) (p : Point) : Point :=
  match b.menu? m with
  | some e => Machine.clampAnchor e.w e.h p
  | none => p

/-- The saved state of the activity a pop-up interrupts; a saved TRACK's arm set is emptied (R109). -/
def ChanState.save? : ChanState → Option Saved
  | .idle => some .idle
  | .gather => some .gather
  | .held => some .held
  | .track t => some (.track { t with arms := .empty })
  | .off | .popup _ | .wait .. => none

/-- Where the anchor starts: the tracking position of a saved TRACK, else the last strike position, else (0, 0)
(R110). -/
def anchorStart (c : PenChannel) : Saved → Point
  | .track t => t.pos
  | _ => c.lastStrike.getD ⟨0, 0⟩

/-- The pop-up `p` opened over a saved state (R108). -/
def openPopup (b : Bank) (c : PenChannel) (p : MenuId) (saved : Saved) : Popup where
  menu := p
  anchor := b.clampAnchor p (anchorStart c saved)
  tally := .replicate 32 0
  count := 0
  slot := { state := saved, gather := c.gather, crowded := c.crowded, tipAtOpening := c.tip, note := false }

/-- A BUTTON-PRESS offered to the channel state (R52, R68, R108). -/
def buttonPressOffered (v : View) (d : Desk) : Desk :=
  match v.port.state, d.chan.state.save?, v.profile.popup? with
  | .up, some saved, some p => d.setState (.popup (openPopup v.bank d.chan p saved))
  | _, _, _ => d

/-- A BUTTON-PRESS: the level first, then the offer (R51, R52; log entry 5). -/
def buttonPress (v : View) (d : Desk) : Desk :=
  match d.chan.button with
  | .held => d
  | .released => buttonPressOffered v { d with chan := { d.chan with button := .held } }

/-! ## Restore and reconciliation (section 7.6) -/

/-- The saved activity's channel state. -/
def Saved.restore : Saved → ChanState
  | .idle => .idle
  | .gather => .gather
  | .held => .held
  | .track t => .track t

/-- Reconciliation (R122): a TIP-UP when the note is set; then a TIP-DOWN when the tip is now down and either the
note is set or the tip at opening was up. -/
def reconcileTip (v : View) (slot : SaveSlot) (d : Desk) : Desk :=
  let d1 := if slot.note then tipUpOffered v d else d
  if d.chan.tip = .down ∧ (slot.note = true ∨ slot.tipAtOpening = .up) then tipDownOffered v d1 else d1

/-- To restore (R121) and reconcile (R122). -/
def restore (v : View) (p : Popup) (d : Desk) : Desk :=
  reconcileTip v p.slot
    { d with
      chan :=
        { d.chan with state := p.slot.state.restore, gather := p.slot.gather, crowded := p.slot.crowded } }

/-! ## The choice (section 7.5) -/

/-- The tally is non-empty (R116). -/
def Popup.tallied (p : Popup) : Bool := p.tally.toList.any fun c => decide (0 < c)

/-- The index of the highest counter from item `i` on, the lowest of equals (R118), with its value. -/
def highestFrom : Nat → List Nat → Nat × Nat
  | i, [] => (i, 0)
  | i, c :: cs =>
    let rest := highestFrom (i + 1) cs
    if c < rest.2 then rest else (i, c)

/-- The item chosen: the item whose counter is highest, the lowest number among equals (R118). -/
def Popup.chosen (p : Popup) : ItemNo := BitVec.ofNat 5 (highestFrom 0 p.tally.toList).1

/-- The ITEM entry of a good choice of item `k` (R119); none for a void one. -/
def Bank.popupItem? (b : Bank) (m : MenuId) (k : ItemNo) : Option ItemEntry :=
  match b.menu? m with
  | some e => if k.toNat < e.count then (b.item? e k).filter (·.enabled) else none
  | none => none

/-- The recorded successor of a choice whose report finds the queue full (R119). -/
def fullSuccessor (v : View) (p : Popup) (tip : Tip) : Option ItemEntry → Successor
  | some i =>
    match i.act with
    | .trackHere => .track p.anchor (v.profile.view.setWidth 12)
    | .report | .reportAndCancel | .setFilter | .togglePattern => heldIfDown tip
  | none => heldIfDown tip

/-- The action of a good choice whose report was appended (R120); a void choice is taken as a REPORT (R119). -/
def choiceAppended (v : View) (p : Popup) (d : Desk) : Option ItemEntry → Desk
  | none => restore v p d
  | some i =>
    match i.act with
    | .report => restore v p d
    | .reportAndCancel => { d with chan := d.chan.clearTable }.setState (heldIfDown d.chan.tip).enter
    | .setFilter => restore v p { d with chan := d.chan.setFilter v.bank i.filterArg }
    | .togglePattern => restore v p { d with flags := toggleFlag d.flags i.patternArg }
    | .trackHere =>
      { d with chan := d.chan.clearTable }.setState (.track (.start p.anchor (v.profile.view.setWidth 12)))

/-- The action of a good choice whose report became the held report: SET-FILTER and TOGGLE-PATTERN still act, the
table already cleared (R119). -/
def choiceHeld (b : Bank) (d : Desk) : Option ItemEntry → Desk
  | none => d
  | some i => fixedAction b d i

/-- To make a choice of the highest item (R118, R119) reporting pass `pass`. -/
def makeChoice (v : View) (pass : PassNo) (p : Popup) (d : Desk) : Desk :=
  let k := p.chosen
  let good := v.bank.popupItem? p.menu k
  let report : MenuReport :=
    { pass := pass, menu := p.menu, item := k, code := good.map (·.code), source := .popup }
  if d.room then choiceAppended v p { d with queue := d.queue ++ [.menu report] } good
  else
    choiceHeld v.bank
      ({ d with chan := d.chan.clearTable }.setState (.wait (.menu report) (fullSuccessor v p d.chan.tip good))) good

/-- A pass-end notice in POPUP (R117). -/
def popupPassEnd (v : View) (pass : PassNo) (p : Popup) (d : Desk) : Desk :=
  if p.tallied then
    let p1 := { p with count := p.count + 1 }
    if v.profile.m.toNat ≤ p.count + 1 then makeChoice v pass p1 (d.setState (.popup p1))
    else d.setState (.popup p1)
  else d

/-- A BUTTON-RELEASE offered to the channel state: a choice, or a cancel (R118, R123). -/
def buttonReleaseOffered (v : View) (d : Desk) : Desk :=
  match v.port.state, d.chan.state with
  | .up, .popup p => if p.tallied then makeChoice v v.pass p d else restore v p d
  | _, _ => d

/-- A BUTTON-RELEASE: the level first, then the offer (R51, R52; log entry 5). -/
def buttonRelease (v : View) (d : Desk) : Desk :=
  match d.chan.button with
  | .released => d
  | .held => buttonReleaseOffered v { d with chan := { d.chan with button := .released } }

/-- A bank switch over an open pop-up, with the new bank active (R124). -/
def popupSwitch (v : View) (d : Desk) : Desk :=
  match d.chan.state with
  | .popup p =>
    if v.profile.popup? = some p.menu then
      d.setState
        (.popup { p with tally := .replicate 32 0, count := 0, anchor := v.bank.clampAnchor p.menu p.anchor })
    else restore v p d
  | _ => d

end Sys2Proof.Machine
end

