-- ==== Sys2Proof/Machine/Channel.lean ====
section
/-! DEFINITION. What reaches a Pen Channel from the other blocks: the pass-end notice (R8), the head-down notice
(R84), a freed queue place (R182), a bank switch's re-check (R98), the soft reset (R89), and the directives that act
on it (R176). -/

namespace Sys2Proof.Machine

/-- The pass-end notice of pass `pass` (R74, R117, R135). -/
def passEndNotice (pass : PassNo) (v : View) (d : Desk) : Desk :=
  match d.chan.state with
  | .gather => gatherPassEnd v pass d
  | .popup p => popupPassEnd v pass p d
  | .track t => trackPassEnd v pass t d
  | .off | .idle | .held | .wait .. => d

/-- What an abort clears in GATHER, TRACK and POPUP (R83): the candidate table, frozen or not; the tracking state and
the save slot go with the channel state. -/
def abortClear (c : PenChannel) : PenChannel :=
  match c.state with
  | .gather | .popup _ => c.clearTable
  | .off | .idle | .held | .track _ | .wait .. => c

/-- The head-down notice (R84, R81). -/
def headDownNotice (_ : View) (d : Desk) : Desk :=
  match d.chan.state with
  | .off | .idle => d
  | .held => d.setState .idle
  | .gather | .track _ | .popup _ => { d with chan := abortClear d.chan }.offer (.aborted .headDown) .idle
  | .wait .. => d.setState (.wait (.aborted .headDown) .idle)

/-- A place freed in the channel's report queue (R82, R140). -/
def placeFreed (_ : View) (d : Desk) : Desk :=
  match d.chan.state with
  | .wait r succ => { d.setState (succ.reconcile d.chan.tip).enter with queue := d.queue ++ [r] }
  | .track t =>
    match t.update with
    | some u => { d.setState (.track { t with update := none }) with queue := d.queue ++ [.track u] }
    | none => d
  | .popup p =>
    match p.slot.state with
    | .track t =>
      match t.update with
      | some u =>
        { d.setState (.popup { p with slot := { p.slot with state := .track { t with update := none } } }) with
          queue := d.queue ++ [.track u] }
      | none => d
    | .idle | .gather | .held => d
  | .off | .idle | .gather | .held => d

/-- The channel holds candidates: in GATHER, and in POPUP with a saved state of GATHER (R98). -/
def ChanState.holdsCandidates : ChanState → Bool
  | .gather => true
  | .popup p => p.slot.state == .gather
  | _ => false

/-- The re-check of a bank switch (R98), with the new bank active. -/
def switchRecheck (v : View) (d : Desk) : Desk :=
  if d.chan.state.holdsCandidates then
    { d with chan := { d.chan with table := recheckTable v.bank d.chan.filterSet d.chan.table } }
  else d

/-- A channel after a soft reset (R89). -/
def PenChannel.softReset (b : Bank) (n : HeadNo) (c : PenChannel) : PenChannel :=
  { c.clearTable with
    state := (match c.state with | .off => .off | _ => .idle)
    highlight := none
    filterSet := b.profile[n].initFilter
    lastStrike := none }

/-! ## The directives that act on a channel -/

/-- ENABLE-CHANNEL (R66): refused unless the channel is OFF. -/
def enableChannel (v : View) (d : Desk) : DirOutcome × Desk :=
  match d.chan.state with
  | .off =>
    (.done,
      { d with
        chan := { d.chan.clearTable with state := .idle, highlight := none, filterSet := v.profile.initFilter } })
  | _ => (.refused .badState, d)

/-- The channel's own state on entering OFF (R67). -/
def PenChannel.disable (c : PenChannel) : PenChannel := { c.clearTable with state := .off, highlight := none }

/-- DISABLE-CHANNEL (R67), with its disposition. -/
def disableChannel (d : Desk) : DirOutcome × ReplyData × Desk :=
  let off := { d with chan := d.chan.disable }
  match d.chan.state with
  | .off => (.refused .badState, .none, d)
  | .idle | .held => (.done, .disposition .none, off)
  | .gather | .track _ | .popup _ =>
    if d.room then
      (.done, .disposition .abortedQueued, { off with queue := d.queue ++ [.aborted .disabled] })
    else (.done, .disposition .abortedLost, off)
  | .wait .. => (.done, .disposition .heldDiscarded, off)

/-- ABORT-ATTEMPT (R83, R81). -/
def abortAttempt (d : Desk) : DirOutcome × Desk :=
  match d.chan.state with
  | .off | .idle | .held => (.refused .badState, d)
  | .gather | .track _ | .popup _ =>
    (.done, { d with chan := abortClear d.chan }.offer (.aborted .host) (heldIfDown d.chan.tip))
  | .wait .. => (.done, d.setState (.wait (.aborted .host) (heldIfDown d.chan.tip)))

/-- FORCE-TRACK (R130), with the clamped start position. -/
def forceTrack (v : View) (x y : Word) (view : NameVal) (d : Desk) : DirOutcome × ReplyData × Desk :=
  let start := clampPoint x.toInt y.toInt
  match v.port.state, d.chan.state with
  | .up, .idle | .up, .held => (.done, .start start, d.setState (.track (.start start view)))
  | _, _ => (.refused .badState, .none, d)

/-- CLEAR-HIGHLIGHT (R86). -/
def clearHighlight (d : Desk) : Desk := { d with chan := { d.chan with highlight := none } }

/-! ## What READ-STATUS item CHANNEL reports -/

/-- The channel state's name. -/
def ChanState.kind : ChanState → ChanKind
  | .off => .off | .idle => .idle | .gather => .gather | .held => .held
  | .track _ => .track | .popup _ => .popup | .wait .. => .wait

/-- A report's kind. -/
def ChannelReport.kind : ChannelReport → ReportKind
  | .pick _ => .pick | .menu _ => .menu | .miss _ => .miss | .track _ => .track
  | .trackEnd _ => .trackEnd | .trackLost _ => .trackLost | .aborted _ => .aborted

/-- The data of READ-STATUS item CHANNEL (R88, R126, R146). -/
def PenChannel.status (c : PenChannel) : ChannelStatus where
  state := c.state.kind
  tip := c.tip
  button := c.button
  lastStrike := c.lastStrike
  filterSet := c.filterSet
  gather := c.gather
  crowded := c.crowded
  tree := c.tree
  highlight := c.highlight
  table := c.table
  held := match c.state with | .wait r succ => some (r.kind, succ) | _ => none
  popup := match c.state with | .popup p => some p | _ => none
  tracking := match c.state with | .track t => some t | _ => none

end Sys2Proof.Machine
end

