-- ==== Sys2Proof/Machine/Banks.lean ====
section
/-! DEFINITION. The Table Banks and the switch (chapter 10): validation, the attempt at a pass-end notice, and the
copy operation. -/

namespace Sys2Proof.Machine

/-! ## Validation (R173): whether an entry fails its table's test -/

/-- An enabled window with base greater than limit. -/
def Window.bad (w : Window) : Bool := w.enable && decide (w.limit < w.base)

def HeadMapEntry.bad (e : HeadMapEntry) : Bool := e.w0.bad || e.w1.bad

/-- The pop-up menu named by the entry of station `n` is a POPUP menu of the bank whose owner is `n`, or none is
named. -/
def Bank.popupOwned (b : Bank) (n : Nat) (p : ProfileEntry) : Bool :=
  match p.popup? with
  | none => true
  | some id =>
    match b.menu? id with
    | some e => e.isPopup && e.owner?.map (·.val) == some n
    | none => false

/-- G, K or M of 0; D outside 1 to 6; A below 8; or a wrong pop-up menu. -/
def ProfileEntry.bad (b : Bank) (n : Nat) (p : ProfileEntry) : Bool :=
  p.g == 0 || p.k == 0 || p.m == 0 || p.d == 0 || p.d == 7 || decide (p.a.toNat < 8) || !b.popupOwned n p

def FilterEntry.bad (f : FilterEntry) : Bool := f.level == 0 || f.level == 7 || decide (4096 < f.limit.toNat)

def MenuEntry.bad (e : MenuEntry) : Bool :=
  (e.defined && decide (256 < e.first.toNat + e.count)) ||
    (e.isPopup && (e.owner?.isNone || e.w == 0 || e.h == 0))

/-- ITEM entry `i` is reached by a menu: it lies from its first item index to first + count − 1. -/
def MenuEntry.reaches (e : MenuEntry) (i : Nat) : Bool :=
  decide (e.first.toNat ≤ i ∧ i < e.first.toNat + e.count)

/-- The tests of ITEM entry `i` against every menu of the bank. -/
def Bank.itemBad (b : Bank) (i : Nat) (e : ItemEntry) : Bool :=
  (e.act == .setFilter && decide (3 < e.arg.toNat) && b.menu.toList.any fun m => m.defined && m.reaches i) ||
    (e.act == .trackHere && b.menu.toList.any fun m => m.isFixed && m.reaches i)

def PatternEntry.bad (p : PatternEntry) : Bool := p.what != .none && (p.depth == 0 || p.depth == 7 || p.mask == 0)

def GlobalEntry.bad (g : GlobalEntry) : Bool := g.defaultHead?.isNone && g.defaultHead != 7

/-- The first index of a list, from `i` on, whose entry fails a test. -/
def firstBad {α : Type} (bad : Nat → α → Bool) : Nat → List α → Option Nat
  | _, [] => none
  | i, e :: es => if bad i e then some i else firstBad bad (i + 1) es

/-- The six sources in the order of R173. -/
def allSources : List Source := [.chan 0, .chan 1, .chan 2, .chan 3, .reply, .status]

/-- A failure at an entry of a table. -/
def failAt (t : TableId) (i : Option Nat) : Option SwitchFailure := i.map fun k => ⟨t, k, none⟩

/-- The RING tests: a slot whose code names no source; then a source that no slot names, with index 8 (R173). -/
def Bank.ringFailure (b : Bank) : Option SwitchFailure :=
  match firstBad (fun _ c => (ringSource c).isNone) 0 b.ring.toList with
  | some i => some ⟨.ring, i, none⟩
  | none =>
    (allSources.find? fun src => !b.ring.toList.any fun c => ringSource c == some src).map fun src =>
      ⟨.ring, 8, some src⟩

/-- Validation of a bank: its first failing entry in table order (R173). -/
def Bank.validate (b : Bank) : Option SwitchFailure :=
  failAt .headmap (firstBad (fun _ e => e.bad) 0 b.headmap.toList)
  <|> failAt .profile (firstBad (ProfileEntry.bad b) 0 b.profile.toList)
  <|> failAt .filter (firstBad (fun _ e => e.bad) 0 b.filter.toList)
  <|> failAt .menu (firstBad (fun _ e => e.bad) 0 b.menu.toList)
  <|> failAt .item (firstBad b.itemBad 0 b.item.toList)
  <|> failAt .pattern (firstBad (fun _ e => e.bad) 0 b.pattern.toList)
  <|> b.ringFailure
  <|> failAt .global (firstBad (fun _ e => e.bad) 0 [b.global])

/-! ## The switch -/

/-- The other bank. -/
def otherBank : BankId → BankId
  | .a => .b
  | .b => .a

/-- The steps 1 to 5 of a switch that passes validation (R174). -/
def State.switchBanks (s : State) : State :=
  let s1 := { s with selector := otherBank s.selector, standby := .ready }
  let s2 := { s1 with ports := perHead fun n => s1.ports[n].trim (s1.active.lag n) }
  let s3 := allHeads.foldl (fun s n => s.onDesk n switchRecheck) s2
  let s4 := allHeads.foldl (fun s n => s.onDesk n popupSwitch) s3
  s4.reloadFlags

/-- The directive code of SWITCH-BANK (section 12.2). -/
def switchCode : BitVec 8 := 5

/-- The pending switch ended with its reply in the reserved space (R175). -/
def State.endSwitch (s : State) (tag : Tag) (o : DirOutcome) (data : ReplyData) : State :=
  { s with pendingSwitch := none, reserved := false }.addReply ⟨tag, switchCode, o, data⟩

/-- The attempt of a pending switch at the notice of pass `pass` (R172, R174, R175). -/
def State.attemptSwitch (s : State) (pass : PassNo) : State :=
  match s.pendingSwitch with
  | none => s
  | some tag =>
    match s.standby with
    | .copying => s
    | .incomplete => s.endSwitch tag (.refused .standbyIncomplete) (.switchIncomplete pass)
    | .ready =>
      match s.standbyBank.validate with
      | some f => s.endSwitch tag (.refused .badTable) (.switchFailed pass f)
      | none => s.switchBanks.endSwitch tag .done (.switchDone pass (otherBank s.selector))

/-! ## The copy operation -/

/-- One move of the copy operation; the move of GLOBAL completes it (R167). With no copy in flight there is no move
(log entry 5). -/
def State.copyMove (s : State) : State :=
  match s.copyPos with
  | none => s
  | some t =>
    let moved := s.setStandbyBank (s.standbyBank.copyTable s.active t)
    match t.next? with
    | some u => { moved with copyPos := some u }
    | none => { moved with copyPos := none, standby := .ready }

end Sys2Proof.Machine
end

