-- ==== Sys2Proof/Machine/Directives.lean ====
section
/-! DEFINITION. The directives as the Directive Unit takes them (sections 10.3 to 10.8): one function for each, and
how an outcome reaches the loft computer (R163). -/

namespace Sys2Proof.Machine

/-- The directive code of section 12.2. -/
def directiveCode : Directive → BitVec 8
  | .writeTable .. => 1 | .readTable .. => 2 | .copyBank => 3 | .clearBank => 4 | .switchBank => 5
  | .cancelSwitch => 6 | .enableChannel _ => 7 | .disableChannel _ => 8 | .abortAttempt _ => 9
  | .forceTrack .. => 10 | .clearHighlight _ => 11 | .setPatternFlag .. => 12 | .restartHead _ => 13
  | .readFaults | .readFaultsClear | .readChannel _ | .readHead _ | .readBanks | .readPass _ => 14
  | .restart => 15
  | .unknown code _ => code

/-- READ-TABLE, READ-STATUS and SWITCH-BANK reply whatever the want-reply flag holds (R16). -/
def alwaysReplies : Directive → Bool
  | .readTable .. | .switchBank | .readFaults | .readFaultsClear | .readChannel _ | .readHead _ | .readBanks
  | .readPass _ => true
  | .writeTable .. | .copyBank | .clearBank | .cancelSwitch | .enableChannel _ | .disableChannel _
  | .abortAttempt _ | .forceTrack .. | .clearHighlight _ | .setPatternFlag .. | .restartHead _ | .restart
  | .unknown .. => false

/-- Whether a DIRECTIVE will reply (R16). -/
def willReply (want : Bool) (d : Directive) : Bool := want || alwaysReplies d

/-- What a directive ends in: its outcome, its reply's data, and the state (R163). -/
structure Result where
  outcome : DirOutcome
  data : ReplyData
  state : State
  deriving DecidableEq, Repr

/-- DONE with no data. -/
def Result.ok (s : State) : Result := ⟨.done, .none, s⟩
/-- REFUSED: no state changes beyond the reply or fault (R163). -/
def Result.no (r : Reason) (s : State) : Result := ⟨.refused r, .none, s⟩

/-- A directive's outcome reported (R163): a REPLY; or, without one, one DIRECTIVE-REFUSED fault for a refusal. -/
def Result.conclude (h : DirHeader) (d : Directive) (r : Result) : State :=
  if willReply h.want d then r.state.addReply ⟨h.tag, directiveCode d, r.outcome, r.data⟩
  else match r.outcome with
    | .done => r.state
    | .refused _ => r.state.raise .directiveRefused

/-! ## Tables -/

/-- Whether an entry range is within a table and its count within 1 to 16 (R165, R166). -/
def rangeOk (t : TableId) (first : Word) (count : BitVec 5) : Bool :=
  decide (1 ≤ count.toNat ∧ count.toNat ≤ Config.maxEntries ∧ first.toNat + count.toNat ≤ t.size)

/-- WRITE-TABLE (R165). -/
def State.writeTable (s : State) (bank : BankId) (table : BitVec 4) (first : Word) (count : BitVec 5)
    (images : List Word) : Result :=
  match TableId.ofCode table with
  | none => .no .badTable s
  | some t =>
    if bank = s.selector then .no .activeBank s
    else if s.standby = .copying then .no .busy s
    else if rangeOk t first count then
      .ok (s.setStandbyBank (s.standbyBank.writeAll t first.toNat count.toNat images))
    else .no .badIndex s

/-- The bank a directive names (R160). -/
def State.bank (s : State) : BankId → Bank
  | .a => s.bankA
  | .b => s.bankB

/-- READ-TABLE (R166). -/
def State.readTable (s : State) (bank : BankId) (table : BitVec 4) (first : Word) (count : BitVec 5) : Result :=
  match TableId.ofCode table with
  | none => .no .badTable s
  | some t =>
    if bank ≠ s.selector ∧ s.standby = .copying then .no .busy s
    else if rangeOk t first count then
      ⟨.done,
        .table bank (decide (bank = s.selector)) s.standby ((s.bank bank).images t first.toNat count.toNat), s⟩
    else .no .badIndex s

/-- COPY-BANK (R167). -/
def State.copyBank (s : State) : Result :=
  if s.standby = .copying then .no .busy s
  else .ok { s with standby := .copying, copyPos := some .headmap }

/-- CLEAR-BANK (R169). -/
def State.clearBank (s : State) : Result :=
  if s.standby = .copying then .no .busy s
  else .ok { s.setStandbyBank Bank.defaults with standby := .ready }

/-- CANCEL-SWITCH (R171). -/
def State.cancelSwitch (s : State) : Result :=
  match s.pendingSwitch with
  | none => .no .notPending s
  | some _ => .ok { s with pendingSwitch := none, reserved := false }

/-- SWITCH-BANK (R170): it always replies, at once only when refused. -/
def State.switchBank (s : State) (tag : Tag) : State :=
  match s.pendingSwitch with
  | some _ => s.addReply ⟨tag, switchCode, .refused .switchPending, .none⟩
  | none => { s with pendingSwitch := some tag, reserved := true }

/-! ## Channels, heads and flags (R176) -/

/-- A directive passed to the Pen Channel it names; a number above 3 is refused with BAD-CHANNEL. -/
def State.toChannel (s : State) (ch : BitVec 8) (f : View → Desk → DirOutcome × ReplyData × Desk) : Result :=
  match headNo? ch with
  | none => .no .badChannel s
  | some n =>
    let r := f (s.view n) (s.desk n)
    ⟨r.1, r.2.1, s.putDesk n r.2.2⟩

/-- ENABLE-CHANNEL (R66). -/
def State.enableChannel (s : State) (ch : BitVec 8) : Result :=
  s.toChannel ch fun v d => ((Machine.enableChannel v d).1, .none, (Machine.enableChannel v d).2)

/-- DISABLE-CHANNEL (R67). -/
def State.disableChannel (s : State) (ch : BitVec 8) : Result := s.toChannel ch fun _ d => Machine.disableChannel d

/-- ABORT-ATTEMPT (R83). -/
def State.abortAttempt (s : State) (ch : BitVec 8) : Result :=
  s.toChannel ch fun _ d => ((Machine.abortAttempt d).1, .none, (Machine.abortAttempt d).2)

/-- FORCE-TRACK (R130). -/
def State.forceTrack (s : State) (ch : BitVec 8) (x y : Word) (view : NameVal) : Result :=
  s.toChannel ch fun v d => Machine.forceTrack v x y view d

/-- CLEAR-HIGHLIGHT (R86). -/
def State.clearHighlight (s : State) (ch : BitVec 8) : Result :=
  s.toChannel ch fun _ d => (.done, .none, Machine.clearHighlight d)

/-- SET-PATTERN-FLAG (R176). -/
def State.setPatternFlag (s : State) (on : Bool) (pattern : BitVec 8) : Result :=
  if h : pattern.toNat < 16 then .ok { s with flags := s.flags.set pattern.toNat on h } else .no .badIndex s

/-- RESTART-HEAD (R46). -/
def State.restartHead (s : State) (head : BitVec 8) : Result :=
  match headNo? head with
  | none => .no .badChannel s
  | some n =>
    match s.ports[n].state with
    | .up => .no .badState s
    | .down => .ok (s.setPort n s.ports[n].restart)

/-! ## READ-STATUS (R177) -/

/-- Item FAULTS without the clear option. -/
def State.readFaults (s : State) : Result := ⟨.done, .faults s.faultPending s.faultCounts, s⟩

/-- Item FAULTS with the clear option: the values, then every count 0 and every pending flag clear (R187). -/
def State.readFaultsClear (s : State) : Result :=
  ⟨.done, .faults s.faultPending s.faultCounts, { s with faultPending := noPending, faultCounts := .replicate 12 0 }⟩

/-- Item CHANNEL n (R88). -/
def State.readChannel (s : State) (n : BitVec 8) : Result :=
  match headNo? n with
  | none => .no .badChannel s
  | some n => ⟨.done, .channel n s.chans[n].status, s⟩

/-- A trail entry as reported (R48). -/
def TrailEntry.status (e : TrailEntry) : EntryStatus := ⟨e.origin, e.kind, e.visible, e.state, e.pos⟩

/-- Head Port n and tracker n as reported (R48, R32). -/
def headStatus (p : HeadPort) (t : Tracker) : HeadStatus where
  state := p.state
  credit := p.credit
  beam := p.beam
  timerRunning := p.timer != .stopped
  sent := sentCount p.trail
  drawn := drawnCount p.trail
  entries := p.trail.map TrailEntry.status
  tracker := t

/-- Item HEAD n (R48, R32). -/
def State.readHead (s : State) (n : BitVec 8) : Result :=
  match headNo? n with
  | none => .no .badChannel s
  | some n => ⟨.done, .head (headStatus s.ports[n] s.trackers[n]), s⟩

/-- Item BANKS. -/
def State.readBanks (s : State) : Result :=
  ⟨.done, .banks ⟨s.selector, s.standby, s.copyPos, s.pendingSwitch, s.flags⟩, s⟩

/-- Item PASS, or an item code the correlator does not know (log entry 11). -/
def State.readPass (s : State) (item : BitVec 4) : Result :=
  if item = 4 then ⟨.done, .pass s.passState s.passCount, s⟩ else .no .badIndex s

/-! ## RESTART (R178) -/

/-- The soft reset of every block (R178, R18, R32, R49, R89, R149, R168, R193). -/
def State.softReset (s : State) : State :=
  { s with
    pendingSwitch := none
    copyPos := none
    standby := if s.copyPos.isSome then .incomplete else s.standby
    passState := .closed
    passCount := 0
    inHand := none
    trackers := .replicate 4 Tracker.empty
    flags := s.active.pattern.map (·.active)
    chans := perHead fun n => s.chans[n].softReset s.active n
    queues := .replicate 4 []
    replies := []
    reserved := false
    faultCounts := .replicate 12 0
    faultPending := noPending
    ringPtr := 0 }

/-! ## Taking a directive -/

/-- A directive that has been handed over takes effect completely (R163). -/
def State.takeDirective (s : State) (h : DirHeader) (d : Directive) : State :=
  match d with
  | .writeTable bank table first count images => (s.writeTable bank table first count images).conclude h d
  | .readTable bank table first count => (s.readTable bank table first count).conclude h d
  | .copyBank => s.copyBank.conclude h d
  | .clearBank => s.clearBank.conclude h d
  | .switchBank => s.switchBank h.tag
  | .cancelSwitch => s.cancelSwitch.conclude h d
  | .enableChannel ch => (s.enableChannel ch).conclude h d
  | .disableChannel ch => (s.disableChannel ch).conclude h d
  | .abortAttempt ch => (s.abortAttempt ch).conclude h d
  | .forceTrack ch x y view => (s.forceTrack ch x y view).conclude h d
  | .clearHighlight ch => (s.clearHighlight ch).conclude h d
  | .setPatternFlag on pattern => (s.setPatternFlag on pattern).conclude h d
  | .restartHead head => (s.restartHead head).conclude h d
  | .readFaults => s.readFaults.conclude h d
  | .readFaultsClear => s.readFaultsClear.conclude h d
  | .readChannel n => (s.readChannel n).conclude h d
  | .readHead n => (s.readHead n).conclude h d
  | .readBanks => s.readBanks.conclude h d
  | .readPass item => (s.readPass item).conclude h d
  | .restart => (Result.ok s.softReset).conclude h d
  | .unknown _ _ => (Result.no .unknownDirective s).conclude h d

end Sys2Proof.Machine
end

