-- ==== Sys2Proof/Machine/Input.lean ====
section
/-! DEFINITION. The Stream Input and Router (chapter 1): the form check, the passes, routing, delivery, the hold of
the input and its end. -/

namespace Sys2Proof.Machine

/-- R3 and R194 over the operands of a record: a NAME whose level lies outside 1 to 6, a TEXT whose count lies
outside 1 to 32, and a WRITE-TABLE whose images do not fill the length its table and count require. -/
def Record.formOk (r : Record) : Bool :=
  match r.body with
  | .malformed => false
  | .beam (.text _ chars) => decide (1 ≤ chars.length ∧ chars.length ≤ 32)
  | .mark (.name level _) => decide (1 ≤ level.toNat ∧ level.toNat ≤ 6)
  | .directive _ _ (.writeTable _ table _ count images) =>
    match TableId.ofCode table with
    | some t => images.length == count.toNat * t.words
    | none => true
  | .passStart | .passEnd | .beam _ | .mark _ | .slot _ | .directive .. => true

/-! ## Passes (section 1.3) -/

/-- A pass opens: every tracker empties, the counter is unchanged (R5, R29). -/
def State.openPass (s : State) : State :=
  { s with passState := .opened, trackers := .replicate 4 Tracker.empty }

/-- A pass closes (R8): the notice to the four channels, the rise of the counter, and the switch the notice brings
about (R6, R171; log entry 10). -/
def State.closePass (s : State) : State :=
  let pass := s.passCount
  let s1 := allHeads.foldl (fun s n => s.onDesk n (passEndNotice pass)) { s with passState := .closed }
  { s1 with passCount := s1.passCount + 1 }.attemptSwitch pass

/-- A PASS-START taken (R5, R6). -/
def State.takePassStart (s : State) : State :=
  match s.passState with
  | .closed => s.openPass
  | .opened => (s.raise .framing).closePass.openPass

/-- A PASS-END taken (R7, R8). -/
def State.takePassEnd (s : State) : State :=
  match s.passState with
  | .closed => s.raise .framing
  | .opened => s.closePass

/-! ## Routing (section 1.4) -/

/-- The heads that have a window containing the address (R10). -/
def Bank.windowHeads (b : Bank) (a : FileAddr) : List HeadNo :=
  allHeads.filter fun n => b.headmap[n].w0.contains a || b.headmap[n].w1.contains a

/-- The destination set before DOWN heads are removed: the windows' heads, else the default head (R10, R11). -/
def Bank.covering (b : Bank) (a : FileAddr) : List HeadNo :=
  match b.windowHeads a with
  | [] => b.global.defaultHead?.toList
  | hs => hs

/-- The final destination set: DOWN heads removed (R12). -/
def State.destinations (s : State) (a : FileAddr) : List HeadNo :=
  (s.active.covering a).filter fun n => s.ports[n].state == .up

/-- A record of a routed kind taken: FRAMING while CLOSED (R7), ROUTE-MISS where nothing covers its address (R11),
else `deliver` to the final destination set; an empty set is discarded quietly (R12). -/
def State.route (s : State) (a : FileAddr) (deliver : List HeadNo → State → State) : State :=
  match s.passState with
  | .closed => s.raise .framing
  | .opened =>
    match s.active.covering a with
    | [] => s.raise .routeMiss
    | _ :: _ =>
      match s.destinations a with
      | [] => s
      | hs => deliver hs s

/-! ## Delivery (R13) -/

/-- A mark taken by the tracker of head `n` (R19). -/
def State.markAt (m : Mark) (s : State) (n : HeadNo) : State :=
  let r := s.trackers[n].take s.active m
  { s with trackers := s.trackers.set n r.1 }.raiseAll r.2

/-- A mark delivered: each tracker takes it on its own (R19). -/
def State.deliverMark (m : Mark) (hs : List HeadNo) (s : State) : State := hs.foldl (State.markAt m) s

/-- The deliveries to head `n` of the record in hand go on: what its credit allows is forwarded (R14, R15). -/
def State.pumpHead (s : State) (n : HeadNo) : State :=
  match s.inHand with
  | some (.deliver r w) =>
    let p := HeadPort.pump (s.active.stallLimit n) w[n] s.ports[n]
    { s with
      inHand := some (.deliver r (w.set n p.1))
      ports := s.ports.set n p.2.1
      headLinks := s.headLinks.set n (s.headLinks[n] ++ p.2.2) }
  | _ => s

/-- The records prepared for each head of the destination set become the record in hand, and every head is forwarded
what its credit allows (R14, R15). -/
def State.deliver (r : Record) (prep : HeadNo → List Prepared) (hs : List HeadNo) (s : State) : State :=
  let wait := perHead fun n => if n ∈ hs then prep n else []
  allHeads.foldl State.pumpHead { s with inHand := some (.deliver r wait) }

/-- What the Stream Editor forwards of a beam record to head `n`, decided when the record is taken (R147). -/
def State.prepBeam (s : State) (addr : FileAddr) (b : Beam) (n : HeadNo) : List Prepared :=
  prepareBeam s.active s.flags s.chans[n] s.passCount n s.trackers[n].snapshot addr b

/-- What a slot record forwards to head `n`, decided when the slot is taken (R15, R158). -/
def State.prepSlot (s : State) (k : Slot) (n : HeadNo) : List Prepared :=
  prepareSlot s.active s.flags s.chans[n] s.passCount n s.trackers[n].snapshot k

/-! ## Taking records and the hold (sections 1.2 and 1.5) -/

/-- A directive that will reply waits in hand while the reply queue has no free space; any other is handed over
(R16). -/
def State.handOver (s : State) (h : DirHeader) (d : Directive) : State :=
  if willReply h.want d && !s.replyRoom then { s with inHand := some (.directive h d) } else s.takeDirective h d

/-- A record taken by the Stream Input: its form, then its kind and the pass state (R3, R4). -/
def State.takeRecord (s : State) (r : Record) : State :=
  if Record.formOk r then
    match r.body with
    | .malformed => s.raise .unknownRecord
    | .passStart => s.takePassStart
    | .passEnd => s.takePassEnd
    | .beam b => s.route r.addr (State.deliver r (s.prepBeam r.addr b))
    | .slot k => s.route r.addr (State.deliver r (s.prepSlot k))
    | .mark m => s.route r.addr (State.deliverMark m)
    | .directive tag want d => s.handOver ⟨r.addr, tag, want⟩ d
  else s.raise .unknownRecord

/-- Every delivery has ended. -/
def deliveriesEnded (w : Vector (List Prepared) 4) : Bool := w.toList.all List.isEmpty

/-- The record in hand disposed of where nothing keeps it (R13), or the directive in hand handed over where a reply
space is free (R16). -/
def State.closeHand (s : State) : State :=
  match s.inHand with
  | none => s
  | some (.deliver _ w) => if deliveriesEnded w then { s with inHand := none } else s
  | some (.directive h d) => if s.replyRoom then { s with inHand := none }.takeDirective h d else s

/-- The waiting records are taken one after another while no record stays in hand; those not taken wait on (section
1.2; log entry 3). -/
def State.takeOffered (s : State) : List Record → State
  | [] => s
  | r :: rs =>
    match s.inHand with
    | some _ => { s with offered := r :: rs }
    | none => (s.takeRecord r).closeHand.takeOffered rs

/-- The input after an event that may end a hold: the record in hand disposed of if nothing keeps it, and the records
that wait at the input taken. -/
def State.settle (s : State) : State := { s.closeHand with offered := [] }.takeOffered s.offered

/-- A record offered by the refresh controller: taken at once when no record is in hand, else it waits (section
1.2). -/
def State.offerRecord (s : State) (r : Record) : State := { s with offered := s.offered ++ [r] }.settle

end Sys2Proof.Machine
end

