-- ==== Sys2Proof/Machine/DirectiveCommands.lean ====
section
/-! DEFINITION. The meanings of the commands: the directives (chapter 10), each offered as its DIRECTIVE record. -/

namespace Sys2Proof.Machine

/-- WRITE_TABLE: WRITE-TABLE is offered (R165). -/
def execWriteTable (h : DirHeader) (bank : BankId) (table : BitVec 4) (first : Word) (count : BitVec 5)
    (images : List Word) (s : State) : Host.Outcome State Fault Refusal :=
  .next (s.offerRecord (h.record (.writeTable bank table first count images)))

/-- READ_TABLE: READ-TABLE is offered (R166). -/
def execReadTable (h : DirHeader) (bank : BankId) (table : BitVec 4) (first : Word) (count : BitVec 5)
    (s : State) : Host.Outcome State Fault Refusal :=
  .next (s.offerRecord (h.record (.readTable bank table first count)))

/-- COPY_BANK: COPY-BANK is offered (R167). -/
def execCopyBank (h : DirHeader) (s : State) : Host.Outcome State Fault Refusal :=
  .next (s.offerRecord (h.record .copyBank))

/-- CLEAR_BANK: CLEAR-BANK is offered (R169). -/
def execClearBank (h : DirHeader) (s : State) : Host.Outcome State Fault Refusal :=
  .next (s.offerRecord (h.record .clearBank))

/-- SWITCH_BANK: SWITCH-BANK is offered (R170). -/
def execSwitchBank (h : DirHeader) (s : State) : Host.Outcome State Fault Refusal :=
  .next (s.offerRecord (h.record .switchBank))

/-- CANCEL_SWITCH: CANCEL-SWITCH is offered (R171). -/
def execCancelSwitch (h : DirHeader) (s : State) : Host.Outcome State Fault Refusal :=
  .next (s.offerRecord (h.record .cancelSwitch))

/-- ENABLE_CHANNEL: ENABLE-CHANNEL is offered (R66). -/
def execEnableChannel (h : DirHeader) (ch : BitVec 8) (s : State) : Host.Outcome State Fault Refusal :=
  .next (s.offerRecord (h.record (.enableChannel ch)))

/-- DISABLE_CHANNEL: DISABLE-CHANNEL is offered (R67). -/
def execDisableChannel (h : DirHeader) (ch : BitVec 8) (s : State) : Host.Outcome State Fault Refusal :=
  .next (s.offerRecord (h.record (.disableChannel ch)))

/-- ABORT_ATTEMPT: ABORT-ATTEMPT is offered (R83). -/
def execAbortAttempt (h : DirHeader) (ch : BitVec 8) (s : State) : Host.Outcome State Fault Refusal :=
  .next (s.offerRecord (h.record (.abortAttempt ch)))

/-- FORCE_TRACK: FORCE-TRACK is offered (R130). -/
def execForceTrack (h : DirHeader) (ch : BitVec 8) (x y : Word) (view : NameVal)
    (s : State) : Host.Outcome State Fault Refusal :=
  .next (s.offerRecord (h.record (.forceTrack ch x y view)))

/-- CLEAR_HIGHLIGHT: CLEAR-HIGHLIGHT is offered (R86). -/
def execClearHighlight (h : DirHeader) (ch : BitVec 8) (s : State) : Host.Outcome State Fault Refusal :=
  .next (s.offerRecord (h.record (.clearHighlight ch)))

/-- SET_PATTERN_FLAG: SET-PATTERN-FLAG is offered (R176). -/
def execSetPatternFlag (h : DirHeader) (on : Bool) (pattern : BitVec 8)
    (s : State) : Host.Outcome State Fault Refusal :=
  .next (s.offerRecord (h.record (.setPatternFlag on pattern)))

/-- RESTART_HEAD: RESTART-HEAD is offered (R46). -/
def execRestartHead (h : DirHeader) (head : BitVec 8) (s : State) : Host.Outcome State Fault Refusal :=
  .next (s.offerRecord (h.record (.restartHead head)))

/-- READ_STATUS_FAULTS: READ-STATUS item FAULTS is offered (R177). -/
def execReadStatusFaults (h : DirHeader) (s : State) : Host.Outcome State Fault Refusal :=
  .next (s.offerRecord (h.record .readFaults))

/-- READ_STATUS_FAULTS_CLEAR: READ-STATUS item FAULTS with the clear option is offered (R187). -/
def execReadStatusFaultsClear (h : DirHeader) (s : State) : Host.Outcome State Fault Refusal :=
  .next (s.offerRecord (h.record .readFaultsClear))

/-- READ_STATUS_CHANNEL: READ-STATUS item CHANNEL is offered (R88). -/
def execReadStatusChannel (h : DirHeader) (n : BitVec 8) (s : State) : Host.Outcome State Fault Refusal :=
  .next (s.offerRecord (h.record (.readChannel n)))

/-- READ_STATUS_HEAD: READ-STATUS item HEAD is offered (R48). -/
def execReadStatusHead (h : DirHeader) (n : BitVec 8) (s : State) : Host.Outcome State Fault Refusal :=
  .next (s.offerRecord (h.record (.readHead n)))

/-- READ_STATUS_BANKS: READ-STATUS item BANKS is offered (R177). -/
def execReadStatusBanks (h : DirHeader) (s : State) : Host.Outcome State Fault Refusal :=
  .next (s.offerRecord (h.record .readBanks))

/-- READ_STATUS_PASS: READ-STATUS item PASS, or an item code of no item, is offered (R177; log entry 11). -/
def execReadStatusPass (h : DirHeader) (it : BitVec 4) (s : State) : Host.Outcome State Fault Refusal :=
  .next (s.offerRecord (h.record (.readPass it)))

/-- RESTART: RESTART is offered (R178). -/
def execRestart (h : DirHeader) (s : State) : Host.Outcome State Fault Refusal :=
  .next (s.offerRecord (h.record .restart))

/-- UNKNOWN_DIRECTIVE: a directive of a code the correlator does not know is offered (R163). -/
def execUnknownDirective (h : DirHeader) (code : BitVec 8) (operands : List Word)
    (s : State) : Host.Outcome State Fault Refusal :=
  .next (s.offerRecord (h.record (.unknown code operands)))

end Sys2Proof.Machine
end

