-- ==== Sys2Proof/Machine/Link.lean ====
section
/-! DEFINITION. The return link (chapter 11): credit grants, the end of a transmission and the selection. -/

namespace Sys2Proof.Machine

/-- Any fault pending flag is set. -/
def State.anyPending (s : State) : Bool := s.faultPending.toList.any id

/-- Whether a source has a report to give (R180). -/
def State.ready (s : State) : Source → Bool
  | .chan n => !s.queues[n].isEmpty
  | .reply => !s.replies.isEmpty
  | .status => s.anyPending

/-- The ring's slots in search order from the pointer: through slot 7 to slot 0, eight at most (R189). -/
def searchOrder (ptr : Fin 8) : List (Fin 8) := [ptr, ptr + 1, ptr + 2, ptr + 3, ptr + 4, ptr + 5, ptr + 6, ptr + 7]

/-- The source a slot of the active ring names. -/
def State.slotSource (s : State) (i : Fin 8) : Option Source := ringSource s.active.ring[i]

/-- The first slot in search order whose source is ready (R189). -/
def State.findSlot (s : State) : Option (Fin 8) :=
  (searchOrder s.ringPtr).find? fun i => (s.slotSource i).any s.ready

/-- A report selected from slot `i`: one credit spent, the pointer to the next slot, the link BUSY (R189). -/
def State.send (s : State) (i : Fin 8) (r : Report) : State :=
  { s with credit := s.credit - 1, ringPtr := i + 1, link := .busy r }

/-- The selection of a source that is ready, at slot `i` (R189): the oldest report of a channel queue, whose place is
then offered to the channel (R182); the oldest finished reply; or a STATUS report built at the moment, every pending
flag cleared (R186). -/
def State.selectSource (s : State) (i : Fin 8) : Source → State
  | .chan n =>
    match s.queues[n] with
    | r :: rest => ({ s with queues := s.queues.set n rest }.send i (.chan n r)).onDesk n placeFreed
    | [] => s
  | .reply =>
    match s.replies with
    | r :: rest => { s with replies := rest }.send i (.reply r)
    | [] => s
  | .status => { s with faultPending := noPending }.send i (.status s.faultPending s.faultCounts)

/-- A selection, made when the link is FREE, the return credit is at least 1 and a source is ready (R189; log
entry 4). -/
def State.select (s : State) : State :=
  match s.link, s.findSlot with
  | .free, some i =>
    if s.credit = 0 then s
    else match s.slotSource i with
      | some src => s.selectSource i src
      | none => s
  | _, _ => s

/-- A credit grant of an amount (R188). -/
def State.grant (s : State) (amount : Nat) : State :=
  if Config.maxReturnCredit < s.credit + amount then
    { s with credit := Config.maxReturnCredit }.raise .creditOverrun
  else { s with credit := s.credit + amount }

/-- The end of a report's transmission (R189). -/
def State.endTransmission (s : State) : State := { s with link := .free }

/-! ## Head events -/

/-- A completion from head `n` (R38, R41, R45), and the forwarding it allows (R14). -/
def State.completion (s : State) (n : HeadNo) : State :=
  match s.ports[n].state with
  | .down => s.raise .lateCompletion
  | .up =>
    if sentCount s.ports[n].trail = 0 then s.raise .strayCompletion
    else
      ((s.setPort n (s.ports[n].complete (s.active.lag n) (s.active.stallLimit n))).pumpHead n).settle

/-- The stall timer of head `n` expires (R43, R17, R84). A stopped timer does not expire (R45; log entry 5). -/
def State.stallExpiry (s : State) (n : HeadNo) : State :=
  match s.ports[n].state, s.ports[n].timer with
  | .up, .running _ =>
    let s1 := { s.setPort n s.ports[n].goDown with inHand := s.inHand.map (InHand.endHead n) }
    ((s1.raise .headDown).onDesk n headDownNotice).settle
  | _, _ => s

end Sys2Proof.Machine
end

