-- ==== Sys2Proof/Machine/EventCommands.lean ====
section
/-! DEFINITION. The meanings of the commands: the heads', the pens', the copy operation's and the return link's events. -/

namespace Sys2Proof.Machine

/-- COMPLETION: a completion from head `n` (R38, R41, R45). -/
def execCompletion (n : HeadNo) (s : State) : Host.Outcome State Fault Refusal :=
  .next (s.completion n)

/-- STALL_TIMER_EXPIRY: the stall timer of head `n` expires (R43). -/
def execStallTimerExpiry (n : HeadNo) (s : State) : Host.Outcome State Fault Refusal :=
  .next (s.stallExpiry n)

/-- STRIKE: a pulse on the strike line of station `n` (R53). -/
def execStrike (n : HeadNo) (s : State) : Host.Outcome State Fault Refusal :=
  .next (s.onDesk n strikeOffered)

/-- TIP_DOWN: the tip switch of station `n` goes down (R51, R52, R68). -/
def execTipDown (n : HeadNo) (s : State) : Host.Outcome State Fault Refusal :=
  .next (s.onDesk n tipDown)

/-- TIP_UP: the tip switch of station `n` goes up (R51, R52, R75). -/
def execTipUp (n : HeadNo) (s : State) : Host.Outcome State Fault Refusal :=
  .next (s.onDesk n tipUp)

/-- BUTTON_PRESS: the menu button of station `n` is pressed (R51, R108). -/
def execButtonPress (n : HeadNo) (s : State) : Host.Outcome State Fault Refusal :=
  .next (s.onDesk n buttonPress)

/-- BUTTON_RELEASE: the menu button of station `n` is released (R51, R118); a delivery that this ends may end a hold (R113). -/
def execButtonRelease (n : HeadNo) (s : State) : Host.Outcome State Fault Refusal :=
  .next (s.onDesk n buttonRelease).settle

/-- COPY_MOVE: one move of the copy operation (R167). -/
def execCopyMove (s : State) : Host.Outcome State Fault Refusal :=
  .next s.copyMove

/-- CREDIT_GRANT: a word received down the return link, a grant of its bits 3..0 (R188, R196). -/
def execCreditGrant (word : Word) (s : State) : Host.Outcome State Fault Refusal :=
  .next (s.grant (word.field 0 4).toNat)

/-- TRANSMISSION_END: the report being sent has been sent (R189). -/
def execTransmissionEnd (s : State) : Host.Outcome State Fault Refusal :=
  .next s.endTransmission

/-- SELECTION: the arbiter's selection (R189); a reply space it frees hands a waiting directive over (R16). -/
def execSelection (s : State) : Host.Outcome State Fault Refusal :=
  .next s.select.settle

end Sys2Proof.Machine
end

