-- ==== Sys2Proof/Machine/StreamCommands.lean ====
section
/-! DEFINITION. The meanings of the commands: the records of the display stream (chapters 1, 2, 8) and power-on reset. -/

namespace Sys2Proof.Machine

/-- POWER_ON_RESET: power is applied: every block takes its power-on state, the levels that of their lines (R18, R51). -/
def execPowerOnReset (lines : Vector PenLines 4) (s : State) : Host.Outcome State Fault Refusal :=
  .next { State.powerOn lines with pending := s.pending }

/-- MALFORMED_RECORD: a record of a kind or length the Formats chapter does not give is offered (R3, R194). -/
def execMalformedRecord (addr : FileAddr) (s : State) : Host.Outcome State Fault Refusal :=
  .next (s.offerRecord ⟨addr, .malformed⟩)

/-- PASS_START: a PASS-START is offered (R5, R6). -/
def execPassStart (addr : FileAddr) (s : State) : Host.Outcome State Fault Refusal :=
  .next (s.offerRecord ⟨addr, .passStart⟩)

/-- PASS_END: a PASS-END is offered (R7, R8). -/
def execPassEnd (addr : FileAddr) (s : State) : Host.Outcome State Fault Refusal :=
  .next (s.offerRecord ⟨addr, .passEnd⟩)

/-- MOVE: a MOVE is offered (R1, R14). -/
def execMove (addr : FileAddr) (p : Point) (s : State) : Host.Outcome State Fault Refusal :=
  .next (s.offerRecord ⟨addr, .beam (.move p)⟩)

/-- DRAW: a DRAW is offered (R1, R14). -/
def execDraw (addr : FileAddr) (p : Point) (i : Intensity) (s : State) : Host.Outcome State Fault Refusal :=
  .next (s.offerRecord ⟨addr, .beam (.draw p i)⟩)

/-- TEXT: a TEXT is offered (R1, R14). -/
def execText (addr : FileAddr) (i : Intensity) (chars : List Char8) (s : State) : Host.Outcome State Fault Refusal :=
  .next (s.offerRecord ⟨addr, .beam (.text i chars)⟩)

/-- NAME: a NAME is offered (R21, R22). -/
def execName (addr : FileAddr) (level : BitVec 3) (value : NameVal) (s : State) : Host.Outcome State Fault Refusal :=
  .next (s.offerRecord ⟨addr, .mark (.name level value)⟩)

/-- MENU_OPEN: a MENU-OPEN is offered (R25, R26). -/
def execMenuOpen (addr : FileAddr) (id : MenuId) (s : State) : Host.Outcome State Fault Refusal :=
  .next (s.offerRecord ⟨addr, .mark (.menuOpen id)⟩)

/-- ITEM: an ITEM is offered (R27). -/
def execItem (addr : FileAddr) (k : ItemNo) (s : State) : Host.Outcome State Fault Refusal :=
  .next (s.offerRecord ⟨addr, .mark (.item k)⟩)

/-- MENU_CLOSE: a MENU-CLOSE is offered (R28). -/
def execMenuClose (addr : FileAddr) (s : State) : Host.Outcome State Fault Refusal :=
  .next (s.offerRecord ⟨addr, .mark .menuClose⟩)

/-- CROSS_SLOT: a CROSS-SLOT is offered (R15, R132). -/
def execCrossSlot (addr : FileAddr) (s : State) : Host.Outcome State Fault Refusal :=
  .next (s.offerRecord ⟨addr, .slot .cross⟩)

/-- READOUT_SLOT: a READOUT-SLOT is offered (R15, R141). -/
def execReadoutSlot (addr : FileAddr) (p : Point) (s : State) : Host.Outcome State Fault Refusal :=
  .next (s.offerRecord ⟨addr, .slot (.readout p)⟩)

end Sys2Proof.Machine
end

