-- ==== Sys2Proof/Machine/Dispatch.lean ====
section
/-! DEFINITION. Every command to its meaning. -/

namespace Sys2Proof.Machine

def exec (i : Instr) (s : State) : Host.Outcome State Fault Refusal :=
  match i with
  | .powerOnReset lines => Sys2Proof.Machine.execPowerOnReset lines s
  | .malformedRecord addr => Sys2Proof.Machine.execMalformedRecord addr s
  | .passStart addr => Sys2Proof.Machine.execPassStart addr s
  | .passEnd addr => Sys2Proof.Machine.execPassEnd addr s
  | .move addr p => Sys2Proof.Machine.execMove addr p s
  | .draw addr p level => Sys2Proof.Machine.execDraw addr p level s
  | .text addr level chars => Sys2Proof.Machine.execText addr level chars s
  | .name addr level value => Sys2Proof.Machine.execName addr level value s
  | .menuOpen addr id => Sys2Proof.Machine.execMenuOpen addr id s
  | .item addr k => Sys2Proof.Machine.execItem addr k s
  | .menuClose addr => Sys2Proof.Machine.execMenuClose addr s
  | .crossSlot addr => Sys2Proof.Machine.execCrossSlot addr s
  | .readoutSlot addr p => Sys2Proof.Machine.execReadoutSlot addr p s
  | .writeTable h bank table first count images => Sys2Proof.Machine.execWriteTable h bank table first count images s
  | .readTable h bank table first count => Sys2Proof.Machine.execReadTable h bank table first count s
  | .copyBank h => Sys2Proof.Machine.execCopyBank h s
  | .clearBank h => Sys2Proof.Machine.execClearBank h s
  | .switchBank h => Sys2Proof.Machine.execSwitchBank h s
  | .cancelSwitch h => Sys2Proof.Machine.execCancelSwitch h s
  | .enableChannel h ch => Sys2Proof.Machine.execEnableChannel h ch s
  | .disableChannel h ch => Sys2Proof.Machine.execDisableChannel h ch s
  | .abortAttempt h ch => Sys2Proof.Machine.execAbortAttempt h ch s
  | .forceTrack h ch x y view => Sys2Proof.Machine.execForceTrack h ch x y view s
  | .clearHighlight h ch => Sys2Proof.Machine.execClearHighlight h ch s
  | .setPatternFlag h on pattern => Sys2Proof.Machine.execSetPatternFlag h on pattern s
  | .restartHead h head => Sys2Proof.Machine.execRestartHead h head s
  | .readStatusFaults h => Sys2Proof.Machine.execReadStatusFaults h s
  | .readStatusFaultsClear h => Sys2Proof.Machine.execReadStatusFaultsClear h s
  | .readStatusChannel h n => Sys2Proof.Machine.execReadStatusChannel h n s
  | .readStatusHead h n => Sys2Proof.Machine.execReadStatusHead h n s
  | .readStatusBanks h => Sys2Proof.Machine.execReadStatusBanks h s
  | .readStatusPass h it => Sys2Proof.Machine.execReadStatusPass h it s
  | .restart h => Sys2Proof.Machine.execRestart h s
  | .unknownDirective h code operands => Sys2Proof.Machine.execUnknownDirective h code operands s
  | .completion n => Sys2Proof.Machine.execCompletion n s
  | .stallTimerExpiry n => Sys2Proof.Machine.execStallTimerExpiry n s
  | .strike n => Sys2Proof.Machine.execStrike n s
  | .tipDown n => Sys2Proof.Machine.execTipDown n s
  | .tipUp n => Sys2Proof.Machine.execTipUp n s
  | .buttonPress n => Sys2Proof.Machine.execButtonPress n s
  | .buttonRelease n => Sys2Proof.Machine.execButtonRelease n s
  | .copyMove => Sys2Proof.Machine.execCopyMove s
  | .creditGrant word => Sys2Proof.Machine.execCreditGrant word s
  | .transmissionEnd => Sys2Proof.Machine.execTransmissionEnd s
  | .selection => Sys2Proof.Machine.execSelection s

end Sys2Proof.Machine
end

