-- ==== Sys2Proof/Machine/Formats.lean ====
section
/-! DEFINITION. The words of what the part sends: the records of the head links (R194) and the reports of the return
link (R196). The places where R196 leaves a reply's layout to be read are in log entry 16. -/

namespace Sys2Proof.Machine

/-- The words of a record as forwarded on a head link: the stream's layout (R194). -/
def HeadRecord.words (r : HeadRecord) : List Word := withHeader r.addr (writeBeam r.beam).1 (writeBeam r.beam).2

/-! ## Fields -/

/-- A point, x and then y, each a full signed word (R196). -/
def pointWords (p : Point) : List Word := [coordWord p.x, coordWord p.y]

/-- A field that may be absent: one word that is 1 or 0, then the field if it is present (R196). -/
def optWords {α : Type} (f : α → List Word) : Option α → List Word
  | some a => 1 :: f a
  | none => [0]

/-- A name path without unknown levels: its depth, then one word for each level (R196). -/
def pathWords (p : Path) : List Word := natWord p.length :: p.map fun v => v.setWidth 16

/-- One level: its value with bit 15 clear, or bit 15 set and the rest 0 for an unknown level (R196). -/
def levelWord : LevelVal → Word
  | .value v => v.setWidth 16
  | .unknown => 0x8000

/-- A tracker's name path: its depth, then its levels. -/
def stackWords (l : List LevelVal) : List Word := natWord l.length :: l.map levelWord

/-- An eighths value, two words, signed, high word first (section 12.4). -/
def eighthsWords (e : Int) : List Word :=
  let b := BitVec.ofInt 32 e
  [b.extractLsb' 16 16, b.extractLsb' 0 16]

def tipWord : Tip → Word
  | .up => 0 | .down => 1
def buttonWord : Button → Word
  | .released => 0 | .held => 1
def bankWord : BankId → Word
  | .a => 0 | .b => 1
def standbyNum : Standby → Nat
  | .ready => 0 | .copying => 1 | .incomplete => 2
def armNum : Arm → Nat
  | .e => 0 | .n => 1 | .w => 2 | .s => 3
def segmentNum : Segment → Nat
  | .inner => 0 | .outer => 1
def armLevelNum : ArmLevel → Nat
  | .none => 0 | .inner => 1 | .outer => 2
def chanKindNum : ChanKind → Nat
  | .off => 0 | .idle => 1 | .gather => 2 | .held => 3 | .track => 4 | .popup => 5 | .wait => 6
def reportKindNum : ReportKind → Nat
  | .pick => 0 | .menu => 1 | .miss => 2 | .track => 3 | .trackEnd => 4 | .trackLost => 5 | .aborted => 6
def sourceNum : Source → Nat
  | .chan n => n.val | .reply => 4 | .status => 5

/-- Reason codes 1 to 10 in the order of R164 (section 12.4). -/
def reasonNum : Reason → Nat
  | .unknownDirective => 1 | .badTable => 2 | .badIndex => 3 | .activeBank => 4 | .busy => 5
  | .switchPending => 6 | .notPending => 7 | .badChannel => 8 | .badState => 9 | .standbyIncomplete => 10

/-- Disposition codes (R196). -/
def dispositionNum : Disposition → Nat
  | .none => 0 | .abortedQueued => 1 | .abortedLost => 2 | .heldDiscarded => 3

/-! ## The data of READ-STATUS replies -/

/-- An axis readout as a field that may be absent. -/
def axisWords (e : Option Int) : List Word := optWords eighthsWords e

/-- A pending update of channel `n`: "a TRACK report's contents" (R128), the fields of R138 in the order of section 11.6,
the channel first, each as R196 encodes a field of a reply and not as a TRACK report on the link is laid out (the
model's reading; log entry 16). -/
def trackFields (n : HeadNo) (r : TrackReport) : List Word :=
  [natWord n, r.pass] ++ pointWords r.pos ++ axisWords r.x ++ axisWords r.y ++ [setOrClear r.xOverflow, setOrClear r.yOverflow]

/-- Saved tracking state: without the current-pass arm set (R109). -/
def savedTrackingWords (n : HeadNo) (t : Tracking) : List Word :=
  pointWords t.pos ++ [natWord t.miss, t.view.setWidth 16] ++ optWords (trackFields n) t.update

/-- A save slot, the fields of R109 in the order of R126; the saved tracking state may be absent. -/
def slotWords (n : HeadNo) (s : SaveSlot) : List Word :=
  let kind : Nat := match s.state with | .idle => 0 | .gather => 1 | .held => 2 | .track _ => 3
  let track : Option Tracking := match s.state with | .track t => some t | _ => none
  [natWord kind, natWord s.gather, clearOrSet s.crowded] ++ optWords (savedTrackingWords n) track ++
    [tipWord s.tipAtOpening, clearOrSet s.note]

/-- A candidate's identity and sample path: the kind, then the identity, then the sample path or its absence. -/
def candidateWords (c : Candidate) : List Word :=
  (match c.ident with
    | .pick p => 0 :: pathWords p
    | .menu m k => [1, m.setWidth 16, k.setWidth 16]) ++
  optWords pathWords c.sample ++ addrWords c.addr ++ pointWords c.pos ++
  [natWord c.hits, natWord c.passesSeen, c.lastPass]

/-- A candidate entry: its valid flag, then its fields if it is valid (R88). An invalid entry is its valid flag alone:
that flag serves for the presence words of its fields (the model's reading of R69 and R196; log entry 16). -/
def entryWords : Option Candidate → List Word
  | some c => setOrClear true :: candidateWords c
  | none => [setOrClear false]

/-- The successor recorded with a held report: its state, and a TRACK successor's start and view (R80), for whose
presence words the state serves (the model's reading of R196; log entry 16). -/
def successorWords : Successor → List Word
  | .idle => [natWord (chanKindNum .idle)]
  | .held => [natWord (chanKindNum .held)]
  | .track pos view => natWord (chanKindNum .track) :: pointWords pos ++ [view.setWidth 16]

/-- The pop-up fields of R126, each absent outside POPUP. -/
def popupWords (n : HeadNo) : Option Popup → List Word
  | some p =>
    [1, p.menu.setWidth 16] ++ 1 :: pointWords p.anchor ++ 1 :: p.tally.toList.map natWord ++
      [1, natWord p.count] ++ 1 :: slotWords n p.slot
  | none => [0, 0, 0, 0, 0]

/-- The tracking fields of R146, each absent outside TRACK. -/
def trackStatusWords (n : HeadNo) : Option Tracking → List Word
  | some t =>
    1 :: pointWords t.pos ++ 1 :: [t.arms.e, t.arms.n, t.arms.w, t.arms.s].map (fun a => natWord (armLevelNum a)) ++
      [1, natWord t.miss, 1, t.view.setWidth 16] ++ optWords (trackFields n) t.update
  | none => [0, 0, 0, 0, 0]

/-- READ-STATUS item CHANNEL `n`: the fields of R88, then R126, then R146. A tree mark is sent as the place of its value
in R70's list, from 0, so that mark R reports entry 2 as 0 and entry 3 as 1 (the model's reading of R196; log entry
16). -/
def ChannelStatus.words (n : HeadNo) (c : ChannelStatus) : List Word :=
  [natWord (chanKindNum c.state), tipWord c.tip, buttonWord c.button] ++ optWords pointWords c.lastStrike ++
  [c.filterSet.setWidth 16, natWord c.gather, clearOrSet c.crowded] ++
  [(match c.tree.p with | .low => 0 | .high => 1), clearOrSet c.tree.q1, clearOrSet c.tree.r3] ++
  optWords pathWords c.highlight ++ c.table.toList.flatMap entryWords ++
  optWords (fun h => natWord (reportKindNum h.1) :: successorWords h.2) c.held ++
  popupWords n c.popup ++ trackStatusWords n c.tracking

/-- A trail entry: origin, file address where present, kind, visible, state, strike position, arm and segment where
present (R48). -/
def EntryStatus.words (e : EntryStatus) : List Word :=
  let origin : Nat := match e.origin with | .stream _ => 0 | .cross .. => 1 | .readout => 2
  let addr : Option FileAddr := match e.origin with | .stream a => some a | _ => none
  let arm : Option Arm := match e.origin with | .cross a _ => some a | _ => none
  let seg : Option Segment := match e.origin with | .cross _ s => s | _ => none
  let kind : Nat := match e.kind with | .move => 0 | .draw => 1 | .text => 2
  let state : Nat := match e.state with | .sent => 0 | .drawn => 1
  natWord origin :: optWords addrWords addr ++ [natWord kind, setOrClear e.visible, natWord state] ++
    pointWords e.pos ++ optWords (fun a => [natWord (armNum a)]) arm ++
    optWords (fun s => [natWord (segmentNum s)]) seg

/-- The menu region state: outside, or inside with id, kind, current item and its disabled flag (R32). The word that
says inside serves for the presence words of the id, the kind and the disabled flag, and outside is that word alone
(the model's reading of R196; log entry 16). -/
def regionWords : Region → List Word
  | .outside => [0]
  | .inside id kind item =>
    let k : Nat := match kind with | .fixed => 0 | .popup => 1 | .undefined => 2
    [1, id.setWidth 16, natWord k] ++ optWords (fun i : ItemMark => [i.number.setWidth 16]) item ++
      [clearOrSet ((item.map (·.disabled)).getD false)]

/-- READ-STATUS item HEAD: the fields of R48, then R32. -/
def HeadStatus.words (h : HeadStatus) : List Word :=
  [(match h.state with | .up => 0 | .down => 1), natWord h.credit] ++ pointWords h.beam ++
  [clearOrSet h.timerRunning, natWord h.sent, natWord h.drawn] ++
  natWord h.entries.length :: h.entries.flatMap EntryStatus.words ++
  stackWords h.tracker.stack ++ [clearOrSet h.tracker.poisoned] ++ regionWords h.tracker.region

/-- READ-STATUS item BANKS (R177). -/
def BanksStatus.words (b : BanksStatus) : List Word :=
  [bankWord b.active, natWord (standbyNum b.standby)] ++ optWords (fun t => [natWord t.code]) b.copyPos ++
  optWords (fun t : Tag => [t.setWidth 16]) b.switchTag ++
  b.flags.toList.map setOrClear

/-- The data words of a reply (R196). The source code of a BAD-TABLE switch reply, given for a RING absence alone, is
appended with no presence word (the model's reading of R196; log entry 16). -/
def ReplyData.words : ReplyData → List Word
  | .none => []
  | .table bank active standby images =>
    (BitVec.ofBool (bank == .b) ++ BitVec.ofBool active ++ (0 : BitVec 12) ++
      BitVec.ofNat 2 (standbyNum standby) : Word) :: images
  | .disposition d => [natWord (dispositionNum d)]
  | .start pos => pointWords pos
  | .faults pending counts =>
    (pending.toList.zip counts.toList).flatMap fun x => [setOrClear x.1, natWord x.2]
  | .channel n c => c.words n
  | .head h => h.words
  | .banks b => b.words
  | .pass st count => [(match st with | .opened => 0 | .closed => 1), count]
  | .switchDone p active => [p, bankWord active]
  | .switchIncomplete p => [p]
  | .switchFailed p f =>
    [p, natWord f.table.code, natWord f.index] ++ (f.source.map fun s => natWord (sourceNum s)).toList

/-! ## Reports (section 12.4) -/

/-- A report's header word: kind, channel, length in words, header included. -/
def reportHeader (kind : BitVec 4) (ch : Nat) (len : Nat) : Word :=
  kind ++ (0 : BitVec 2) ++ BitVec.ofNat 2 ch ++ BitVec.ofNat 8 len

/-- The header and the words after it. -/
def withReportHeader (kind : BitVec 4) (ch : Nat) (ws : List Word) : List Word :=
  reportHeader kind ch (1 + ws.length) :: ws

/-- The words of a PICK report after its header. -/
def PickReport.words (r : PickReport) : List Word :=
  [r.pass,
   BitVec.ofBool r.closeCall ++ BitVec.ofBool r.crowded ++ (0 : BitVec 3) ++ BitVec.ofNat 3 r.path.length ++
     (0 : BitVec 5) ++ r.priority,
   BitVec.ofNat 8 r.hits ++ BitVec.ofNat 8 r.passesSeen] ++
  addrWords r.addr ++ pointWords r.pos ++ r.path.map fun v => v.setWidth 16

/-- The words of a MENU report after its header. -/
def MenuReport.words (r : MenuReport) : List Word :=
  [r.pass,
   BitVec.ofBool (r.source == .popup) ++ BitVec.ofBool r.code.isSome ++ r.menu ++ (0 : BitVec 3) ++ r.item,
   (r.code.getD 0).setWidth 16] ++
  match r.source with
  | .popup => []
  | .fixed hits close crowded =>
    [BitVec.ofBool close ++ BitVec.ofBool crowded ++ (0 : BitVec 6) ++ BitVec.ofNat 8 hits]

/-- The words of a TRACK report after its header. -/
def TrackReport.words (r : TrackReport) : List Word :=
  r.pass :: pointWords r.pos ++
  [BitVec.ofBool r.x.isSome ++ BitVec.ofBool r.y.isSome ++ BitVec.ofBool r.xOverflow ++
     BitVec.ofBool r.yOverflow ++ (0 : BitVec 12)] ++
  eighthsWords (r.x.getD 0) ++ eighthsWords (r.y.getD 0)

/-- The words of a station's report. -/
def ChannelReport.words (n : HeadNo) : ChannelReport → List Word
  | .pick r => withReportHeader 0 n r.words
  | .menu r => withReportHeader 1 n r.words
  | .miss pass => withReportHeader 2 n [pass]
  | .track r => withReportHeader 3 n r.words
  | .trackEnd pos => withReportHeader 4 n (pointWords pos)
  | .trackLost pos => withReportHeader 5 n (pointWords pos)
  | .aborted reason =>
    withReportHeader 6 n [match reason with | .host => 0 | .disabled => 1 | .headDown => 2]

/-- The words of a REPLY after its header. -/
def Reply.words (r : Reply) : List Word :=
  let o : Word := match r.outcome with
    | .done => 0
    | .refused reason => (1 : BitVec 1) ++ (0 : BitVec 11) ++ BitVec.ofNat 4 (reasonNum reason)
  (r.code ++ r.tag : Word) :: o :: r.data.words

/-- Twelve flags in bits 11..0, bit k for fault number k. -/
def pendingWord (v : Vector Bool 12) : Word :=
  natWord (v.toList.foldr (fun b acc => 2 * acc + (if b then 1 else 0)) 0)

/-- The words of a report on the return link (R196). -/
def Report.words : Report → List Word
  | .chan n r => r.words n
  | .reply r => withReportHeader 7 0 r.words
  | .status pending counts => withReportHeader 8 0 (pendingWord pending :: counts.toList.map natWord)

end Sys2Proof.Machine
end

