-- ==== Sys2Proof/Safety.lean ====
section
/-! DEFINITION. What the manual promises of every reachable state, as one invariant in parts: the bounds and
relations its rules state. -/

namespace Sys2Proof.Machine

/-- The input is free: no record in hand and none waiting, so that a record offered is taken at once (section 1.2). -/
structure State.InputFree (s : State) : Prop where
  hand : s.inHand = none
  offered : s.offered = []

/-- The input is held: the record in hand has a delivery that has not ended, or it is a directive that waits for
reply space (section 1.5). -/
def State.InputHeld (s : State) : Prop :=
  match s.inHand with
  | none => False
  | some (.deliver _ w) => deliveriesEnded w = false
  | some (.directive _ _) => s.replyRoom = false

/-- What holds of the input: it is free, or a cause of section 1.5 holds it. -/
def State.InputOk (s : State) : Prop := s.InputFree ∨ s.InputHeld

/-- The head link's books (R37): an UP head's credit and its SENT entries make 8; a DOWN head has credit 8, an empty
trail and a stopped timer (R33). -/
def HeadPort.Balanced (p : HeadPort) : Prop :=
  match p.state with
  | .up => p.credit + sentCount p.trail = Config.headCredit
  | .down => p.credit = Config.headCredit ∧ p.trail = [] ∧ p.timer = .stopped

/-- A trail reads as a run of DRAWN entries, each visible, followed by a run of SENT entries (R38, R39). -/
def TrailOrdered (t : List TrailEntry) : Prop :=
  ∃ drawn sent, t = drawn ++ sent ∧ (∀ e ∈ drawn, e.state = .drawn ∧ e.visible = true) ∧
    ∀ e ∈ sent, e.state = .sent

/-- The stall timer runs only while the trail has a SENT entry (R42). -/
def HeadPort.TimerOk (p : HeadPort) : Prop := sentCount p.trail = 0 → p.timer = .stopped

/-- What holds of Head Port `n` under a bank: its books, its trail's order, at most L DRAWN entries (R39), its
timer. -/
def HeadPort.Ok (b : Bank) (n : HeadNo) (p : HeadPort) : Prop :=
  p.Balanced ∧ TrailOrdered p.trail ∧ drawnCount p.trail ≤ b.lag n ∧ p.TimerOk

/-- What holds of a channel report queue: at most four reports, of which at most one is a TRACK report (R181). -/
def QueueOk (q : List ChannelReport) : Prop := q.length ≤ Config.queuePlaces ∧ q.countP ChannelReport.isTrack ≤ 1

/-- What holds of the reply queue and the pending switch: at most 8 occupied spaces (R180), and a reserved space
exactly while a switch is pending (R170). -/
def State.RepliesOk (s : State) : Prop :=
  s.replySpacesUsed ≤ Config.replySpaces ∧ s.reserved = s.pendingSwitch.isSome

/-- What holds of the copy operation: it has a position exactly while the standby is COPYING (R160, R167). -/
def State.CopyOk (s : State) : Prop := s.copyPos.isSome = true ↔ s.standby = .copying

/-- What holds of the counts of the Report Unit: the return credit within 0 to 15 (R188) and the fault counts within
0 to 65535 (R185). -/
def State.CountsOk (s : State) : Prop :=
  s.credit ≤ Config.maxReturnCredit ∧ ∀ c ∈ s.faultCounts.toList, c ≤ Config.maxFaultCount

/-- A name stack has at most 6 levels, and an unknown level only while poisoned (R20, R22, R23, R55). -/
def Tracker.Ok (t : Tracker) : Prop := t.stack.length ≤ 6 ∧ (LevelVal.unknown ∈ t.stack → t.poisoned = true)

/-- What holds of Pen Channel's table: no two valid entries with the same identity, and valid entries only in GATHER or
in POPUP over a gather (R69). -/
def PenChannel.TableOk (c : PenChannel) : Prop :=
  (c.candidates.map (·.ident)).Nodup ∧ (c.anyCandidate = true → c.state.holdsCandidates = true)

/-- The levels and the channel state agree (section 4.1): in GATHER the tip is down; in POPUP the button is held, a
gather is saved with the tip down, and a tip that was down at the opening is down until a release is noted; and a
channel whose head is DOWN stands in none of GATHER, TRACK and POPUP, nor will a freed place put it in TRACK (R84; log
entry 20). -/
def PenChannel.LevelsOk (c : PenChannel) (p : HeadPort) : Prop :=
  match c.state with
  | .gather => c.tip = .down ∧ p.state = .up
  | .track _ => p.state = .up
  | .popup q =>
    p.state = .up ∧ c.button = .held ∧ (q.slot.state = .gather → q.slot.tipAtOpening = .down) ∧
      (q.slot.tipAtOpening = .down → q.slot.note = false → c.tip = .down)
  | .wait _ (.track _ _) => p.state = .up
  | .off | .idle | .held | .wait _ .idle | .wait _ .held => True

/-- What holds of a channel's report queue together with what the channel keeps back from it: the held report of WAIT
is no TRACK report and the queue is full (R80, R82), and a pending update, live or saved, stands only beside a full
queue without a TRACK report (R139, R140). -/
def KeptBackOk (c : PenChannel) (q : List ChannelReport) : Prop :=
  match c.state with
  | .wait r _ => r.isTrack = false ∧ q.length = Config.queuePlaces
  | .track t => t.update.isSome = true → q.length = Config.queuePlaces ∧ q.countP ChannelReport.isTrack = 0
  | .popup p =>
    match p.slot.state with
    | .track t => t.update.isSome = true → q.length = Config.queuePlaces ∧ q.countP ChannelReport.isTrack = 0
    | .idle | .gather | .held => True
  | .off | .idle | .gather | .held => True

/-- A run is safe when every state it reaches keeps the part's books. -/
structure State.Ok (s : State) : Prop where
  ports : ∀ n : HeadNo, s.ports[n].Ok s.active n
  input : s.InputOk
  queues : ∀ n : HeadNo, QueueOk s.queues[n] ∧ KeptBackOk s.chans[n] s.queues[n]
  replies : s.RepliesOk
  copy : s.CopyOk
  counts : s.CountsOk
  trackers : ∀ n : HeadNo, s.trackers[n].Ok
  tables : ∀ n : HeadNo, s.chans[n].TableOk
  levels : ∀ n : HeadNo, s.chans[n].LevelsOk s.ports[n]
  bank : s.active.validate = none

end Sys2Proof.Machine
end

