-- ==== Sys2Proof/Certificates/Slice0/Obligations.lean ====
section
/-! DEFINITION. The statements for the provers, and the words they are written in. -/

namespace Sys2Proof.Machine

/-! ## The words of the statements -/

/-- A window contains an address (R10). -/
def Window.holds (w : Window) (a : FileAddr) : Prop :=
  w.enable = true ∧ w.base.toNat ≤ a.toNat ∧ a.toNat ≤ w.limit.toNat

/-- Head `n` has a window of the active head map that contains the address (R10). -/
def State.covers (s : State) (a : FileAddr) (n : HeadNo) : Prop :=
  s.active.headmap[n].w0.holds a ∨ s.active.headmap[n].w1.holds a

/-- Head `n` is in the set that the windows and the default head give the address (R10, R11). -/
def State.names (s : State) (a : FileAddr) (n : HeadNo) : Prop :=
  s.covers a n ∨ ((∀ m, ¬ s.covers a m) ∧ s.active.global.defaultHead.toNat = n.val)

/-- Head `n` is in the final destination set (R12). -/
def State.reaches (s : State) (a : FileAddr) (n : HeadNo) : Prop := s.names a n ∧ s.ports[n].state = .up

/-- The file address of a command that offers a record of a routed kind (section 1.1), its form being right. -/
def routedAddr? : Instr → Option FileAddr
  | .move a _ | .draw a _ _ | .menuOpen a _ | .item a _ | .menuClose a | .crossSlot a | .readoutSlot a _ => some a
  | .text a i cs => if (Instr.text a i cs).wellFormed then some a else none
  | .name a l v => if (Instr.name a l v).wellFormed then some a else none
  | _ => none

/-- The beam record a command offers, its form being right. -/
def beamOf? : Instr → Option (FileAddr × Beam)
  | .move a p => some (a, .move p)
  | .draw a p i => some (a, .draw p i)
  | .text a i cs => if (Instr.text a i cs).wellFormed then some (a, .text i cs) else none
  | _ => none

/-- The slot record a command offers. -/
def slotOf? : Instr → Option (FileAddr × Slot)
  | .crossSlot a => some (a, .cross)
  | .readoutSlot a p => some (a, .readout p)
  | _ => none

/-- What a record makes head `n`'s delivery forward, if it reaches the head: the Stream Editor's decision (R147). -/
def State.decided (s : State) (n : HeadNo) : RecordBody → FileAddr → List Prepared
  | .beam b, a => s.prepBeam a b n
  | .slot k, _ => s.prepSlot k n
  | _, _ => []

/-- The reply queue has a free space, a reservation counted as occupied (R16, R183). -/
def State.HasReplySpace (s : State) : Prop := s.replies.length + (if s.reserved then 1 else 0) < 8

/-- A directive offered now is taken at once: the input is free, and a reply that is asked for has its space
(R16). -/
def State.Takes (s : State) (h : DirHeader) : Prop := s.InputFree ∧ (h.want = true → s.HasReplySpace)

/-- No delivery is in hand: the input is free, or a directive holds it (section 1.5). -/
def State.NoDelivery (s : State) : Prop := s.InputOk ∧ ∀ r w, s.inHand ≠ some (.deliver r w)

/-- No directive is in hand: the input is free, or a delivery holds it (section 1.5). -/
def State.NoDirective (s : State) : Prop := s.InputOk ∧ ∀ h d, s.inHand ≠ some (.directive h d)

/-- A directive that always replies, offered now, is taken at once (R16). -/
def State.TakesReplying (s : State) : Prop := s.InputFree ∧ s.HasReplySpace

/-- The directives that reply whether or not a reply is asked for (R162). -/
def RepliesUnasked : Directive → Prop
  | .readTable .. | .readFaults | .readFaultsClear | .readChannel _ | .readHead _ | .readBanks | .readPass _
  | .switchBank => True
  | _ => False

/-- The state with one more finished reply. -/
def State.replying (s : State) (h : DirHeader) (code : BitVec 8) (o : DirOutcome) (x : ReplyData) : State :=
  { s with replies := s.replies ++ [⟨h.tag, code, o, x⟩] }

/-- How an outcome reaches the loft computer, for a directive that does not always reply (R163). -/
def State.concluded (s : State) (h : DirHeader) (code : BitVec 8) (o : DirOutcome) (x : ReplyData) : State :=
  if h.want = true then s.replying h code o x
  else if o = .done then s
  else s.raise .directiveRefused

/-- Refused, with no data. -/
def State.refuses (s : State) (h : DirHeader) (code : BitVec 8) (r : Reason) : State :=
  s.concluded h code (.refused r) .none

/-- Done, with no data. -/
def State.did (s : State) (h : DirHeader) (code : BitVec 8) : State := s.concluded h code .done .none

/-- The state with channel `n` replaced. -/
def State.withChan (s : State) (n : HeadNo) (c : PenChannel) : State := { s with chans := s.chans.set n c }

/-- The state with report queue `n` replaced. -/
def State.withQueue (s : State) (n : HeadNo) (q : List ChannelReport) : State := { s with queues := s.queues.set n q }

/-- The channel state a successor enters; a track begins with no arm struck, no miss and no pending update (R80,
R129). -/
def Successor.entered : Successor → ChanState
  | .idle => .idle
  | .held => .held
  | .track pos view =>
    .track { pos := pos, arms := ⟨.none, .none, .none, .none⟩, miss := 0, view := view, update := none }

/-- The channel state a saved activity resumes (R121). -/
def Saved.resumed : Saved → ChanState
  | .idle => .idle
  | .gather => .gather
  | .held => .held
  | .track t => .track t

/-- A report other than TRACK offered by channel `n`, which has become `c` in all but its state (R80). -/
def State.offers (s : State) (n : HeadNo) (c : PenChannel) (r : ChannelReport) (succ : Successor) : State :=
  if s.queues[n].length < 4 then
    (s.withChan n { c with state := succ.entered }).withQueue n (s.queues[n] ++ [r])
  else s.withChan n { c with state := .wait r succ }

/-- The channel with its candidate table cleared: entries invalid, tree initial, gather count 0, crowded clear
(R68, R77, R83). -/
def PenChannel.emptied (c : PenChannel) : PenChannel :=
  { c with table := .replicate 4 none, tree := ⟨.high, true, true⟩, gather := 0, crowded := false }

/-- The channel holds no candidate. -/
def PenChannel.Empty (c : PenChannel) : Prop := ∀ i : Fin 4, c.table[i] = none

/-- A successor chosen by the tip level (R83, R119, R136). -/
def byTip (t : Tip) : Successor := if t = .down then .held else .idle

/-- A slot of the active ring whose source is ready (R180). -/
def State.SlotReady (s : State) (i : Fin 8) : Prop :=
  (∃ n : HeadNo, s.active.ring[i].toNat = n.val ∧ s.queues[n] ≠ []) ∨
    (s.active.ring[i] = 4 ∧ s.replies ≠ []) ∨
    (s.active.ring[i] = 5 ∧ ∃ k : Fin 12, s.faultPending[k] = true)

/-- Slot `i` is the one the search finds: the first that is ready, going round from the ring pointer (R189). -/
def State.Finds (s : State) (i : Fin 8) : Prop :=
  ∃ k : Nat, k < 8 ∧ i.val = (s.ringPtr.val + k) % 8 ∧ s.SlotReady i ∧
    ∀ j : Fin 8, ∀ m : Nat, m < k → j.val = (s.ringPtr.val + m) % 8 → ¬ s.SlotReady j

/-- A selection can be made (R189). -/
def State.Selects (s : State) (i : Fin 8) : Prop := s.link = .free ∧ 1 ≤ s.credit ∧ s.Finds i

/-- A report taken from slot `i` for the link (R189). -/
def State.sends (s : State) (i : Fin 8) (r : Report) : State :=
  { s with credit := s.credit - 1, ringPtr := i + 1, link := .busy r }

/-- Commands one after another. -/
def execAll : List Instr → State → Host.Outcome State Fault Refusal
  | [], s => .next s
  | c :: cs, s =>
    match exec c s with
    | .next t => execAll cs t
    | .fault f => .fault f
    | .refused r => .refused r

/-- The nothing-to-replay condition of a restore (R122): no release was noted, and the tip is not newly down. -/
def SaveSlot.Quiet (slot : SaveSlot) (tip : Tip) : Prop :=
  slot.note = false ∧ ¬ (tip = .down ∧ slot.tipAtOpening = .up)

/-- The channel after a restore, before reconciliation (R121). -/
def PenChannel.restored (c : PenChannel) (p : Popup) : PenChannel :=
  { c with state := p.slot.state.resumed, gather := p.slot.gather, crowded := p.slot.crowded }

/-- Candidate `c` of entry `i` goes before candidate `d` of entry `j` in the order of R76. -/
def goesBefore (b : Bank) (c : Candidate) (i : Nat) (d : Candidate) (j : Nat) : Prop :=
  let kind (x : Candidate) : Nat := match x.ident with | .menu _ _ => 1 | .pick _ => 0
  let prio (x : Candidate) : Nat := (b.classOf (x.sample.getD [])).priority.toNat
  d.hits < c.hits ∨ d.hits = c.hits ∧
  (d.passesSeen < c.passesSeen ∨ d.passesSeen = c.passesSeen ∧
  (kind d < kind c ∨ kind d = kind c ∧
  ((kind c = 0 ∧ prio d < prio c) ∨ (kind c = 0 → prio d = prio c) ∧
  (d.lastPass.toNat < c.lastPass.toNat ∨ d.lastPass.toNat = c.lastPass.toNat ∧ i < j))))

end Sys2Proof.Machine

open Sys2Proof Sys2Proof.Machine

/-! ## The queue of commands -/

/-- A step takes the command at the front of the queue and runs it on the state with the queue's rest. -/
def Obligations.StepRunsTheFrontCommand : Prop :=
  ∀ (s : State) (c : Instr) (cs : List Instr), s.pending = c :: cs → step s = exec c { s with pending := cs }

/-- No command ends in a fault or a refusal (log entry 19), and none touches the queue; with no command waiting the
block idles (the model's choice, log entry 2). -/
def Obligations.EveryCommandCompletes : Prop :=
  (∀ (c : Instr) (s : State), ∃ t, exec c s = .next t ∧ t.pending = s.pending) ∧
  (∀ s : State, s.pending = [] → step s = .next s)

/-! ## Resets -/

/-- POWER_ON_RESET: every block takes its power-on state; each level takes its line. That the input's waiting records
and the link history empty is the model's choice (log entry 8). -/
def Obligations.PowerOnResetState : Prop :=
  ∀ (lines : Vector PenLines 4) (s : State), ∃ t, exec (.powerOnReset lines) s = .next t ∧
    (∀ n : HeadNo, t.chans[n] =
      { state := .off, tip := lines[n].tip, button := lines[n].button, lastStrike := none,
        table := .replicate 4 none, tree := ⟨.high, true, true⟩, gather := 0, crowded := false, highlight := none,
        filterSet := 0 }) ∧
    t = { passState := .closed, passCount := 0, inHand := none, offered := [],
          trackers := .replicate 4 ⟨[], false, .outside⟩, flags := .replicate 16 false,
          ports := .replicate 4 { state := .up, credit := 8, trail := [], timer := .stopped, beam := ⟨0, 0⟩ },
          headLinks := .replicate 4 [], chans := t.chans, bankA := Bank.defaults, bankB := Bank.defaults,
          selector := .a, standby := .ready, pendingSwitch := none, copyPos := none, queues := .replicate 4 [],
          replies := [], reserved := false, faultCounts := .replicate 12 0, faultPending := .replicate 12 false,
          ringPtr := 0, credit := 0, link := .free, pending := s.pending }

/-- RESTART: the soft reset of every block, then its reply where one is wanted. -/
def Obligations.RestartResetsLiveState : Prop :=
  ∀ (h : DirHeader) (s : State), s.Takes h → ∃ t, exec (.restart h) s = .next t ∧
    (∀ n : HeadNo, t.chans[n] =
      { state := if s.chans[n].state = .off then .off else .idle, tip := s.chans[n].tip, button := s.chans[n].button,
        lastStrike := none, table := .replicate 4 none, tree := ⟨.high, true, true⟩, gather := 0, crowded := false,
        highlight := none, filterSet := s.active.profile[n].initFilter }) ∧
    t = { s with
          passState := .closed, passCount := 0, trackers := .replicate 4 ⟨[], false, .outside⟩,
          flags := s.active.pattern.map (·.active), chans := t.chans,
          standby := if s.copyPos = none then s.standby else .incomplete,
          pendingSwitch := none, copyPos := none, queues := .replicate 4 [],
          replies := if h.want = true then [⟨h.tag, 15, .done, .none⟩] else [], reserved := false,
          faultCounts := .replicate 12 0, faultPending := .replicate 12 false, ringPtr := 0 }

/-! ## The stream input -/

/-- A malformed record raises UNKNOWN-RECORD, whatever the pass state, and has no other effect, a WRITE-TABLE whose
images do not fill the length that its table and count require among them (that operands come so to a command is log
entry 12); a directive of an unknown code is not malformed and is refused; what one fault notice does to its count and
its pending flag. -/
def Obligations.MalformedRecordIsCountedAndDiscarded : Prop :=
  (∀ (s : State), s.InputFree →
    (∀ a, exec (.malformedRecord a) s = .next (s.raise .unknownRecord)) ∧
    (∀ a l v, ¬ (1 ≤ l.toNat ∧ l.toNat ≤ 6) → exec (.name a l v) s = .next (s.raise .unknownRecord)) ∧
    (∀ a i cs, ¬ (1 ≤ cs.length ∧ cs.length ≤ 32) → exec (.text a i cs) s = .next (s.raise .unknownRecord)) ∧
    (∀ h bank table first count images words, imageWords table = some words →
      images.length ≠ count.toNat * words →
      exec (.writeTable h bank table first count images) s = .next (s.raise .unknownRecord))) ∧
  (∀ (h : DirHeader) (code : BitVec 8) (operands : List Word) (s : State), s.Takes h →
    exec (.unknownDirective h code operands) s = .next (s.refuses h code .unknownDirective)) ∧
  (∀ (s : State) (k : FaultKind),
    s.raise k =
      { s with
        faultCounts := s.faultCounts.set k.num (min 65535 (s.faultCounts[k.num] + 1)),
        faultPending :=
          if s.active.global.faultMask.getLsbD k.num.val = true then s.faultPending.set k.num true
          else s.faultPending })

/-- While the pass is CLOSED a PASS-END and every record of a routed kind raise FRAMING and have no other effect. -/
def Obligations.ClosedPassRaisesFraming : Prop :=
  ∀ (s : State), s.InputFree → s.passState = .closed →
    (∀ a, exec (.passEnd a) s = .next (s.raise .framing)) ∧
    (∀ c a, routedAddr? c = some a → exec c s = .next (s.raise .framing))

/-- A PASS-START while CLOSED opens the pass and empties every tracker, UP or DOWN; while OPEN it raises FRAMING and
is then taken as a PASS-END followed by a PASS-START. -/
def Obligations.PassStartOpensThePass : Prop :=
  (∀ (s : State) (a : FileAddr), s.InputFree → s.passState = .closed →
    exec (.passStart a) s =
      .next { s with passState := .opened, trackers := .replicate 4 ⟨[], false, .outside⟩ }) ∧
  (∀ (s : State) (a : FileAddr), s.InputFree → s.passState = .opened →
    ∃ t, exec (.passEnd a) (s.raise .framing) = .next t ∧ exec (.passStart a) s = exec (.passStart a) t ∧
      t.passState = .closed)

/-- A PASS-END while OPEN, no switch pending: the pass closes, the notice with the ending pass's number reaches each
channel, which acts on it by itself, and the counter rises by one; the trails, trackers, banks and replies stand. In OFF,
IDLE, HELD and WAIT the notice leaves the channel, its queue and the live flags as they stand. -/
def Obligations.PassEndNotifiesEachChannelAndCounts : Prop :=
  ∀ (s : State) (a : FileAddr), s.InputFree → s.passState = .opened → s.pendingSwitch = none →
    ∃ t, exec (.passEnd a) s = .next t ∧
      (∀ n : HeadNo,
        t.chans[n] = (passEndNotice s.passCount (s.view n) (s.desk n)).chan ∧
        t.queues[n] = (passEndNotice s.passCount (s.view n) (s.desk n)).queue) ∧
      (∀ n : HeadNo,
        (s.chans[n].state = .off ∨ s.chans[n].state = .idle ∨ s.chans[n].state = .held ∨
          ∃ r q, s.chans[n].state = .wait r q) →
        t.chans[n] = s.chans[n] ∧ t.queues[n] = s.queues[n] ∧
        ∀ f, (passEndNotice s.passCount (s.view n) { s.desk n with flags := f }).flags = f) ∧
      t = { s with
            passState := .closed, passCount := s.passCount + 1, chans := t.chans, queues := t.queues,
            flags := allHeads.foldl
              (fun f n => (passEndNotice s.passCount (s.view n) { s.desk n with flags := f }).flags) s.flags }

/-- A record of a routed kind that no window and no default head covers raises ROUTE-MISS; one whose heads are all
DOWN is discarded quietly. -/
def Obligations.RouteMissAndQuietDiscard : Prop :=
  ∀ (s : State) (c : Instr) (a : FileAddr), s.InputFree → s.passState = .opened → routedAddr? c = some a →
    ((∀ n, ¬ s.names a n) → exec c s = .next (s.raise .routeMiss)) ∧
    ((∃ n, s.names a n) → (∀ n, ¬ s.reaches a n) → exec c s = .next s)

/-- A beam or slot record taken: each head of the destination set is forwarded, of what the Stream Editor decided for
it, as much as its credit allows, in order, and the rest waits in hand; the input is free again when nothing waits.
Forwarding one record takes one credit and makes one SENT entry, moves the beam, and starts the timer where no SENT
entry stood. -/
def Obligations.DeliveryForwardsWhatCreditAllows : Prop :=
  (∀ (s : State) (c : Instr) (r : Record), s.InputFree → s.passState = .opened →
    ((∃ x, beamOf? c = some x ∧ r = ⟨x.1, .beam x.2⟩) ∨ ∃ x, slotOf? c = some x ∧ r = ⟨x.1, .slot x.2⟩) →
    (∃ n, s.reaches r.addr n) →
    ∃ (t : State) (w : HeadNo → List Prepared), exec c s = .next t ∧
      (∀ n, s.reaches r.addr n → w n = s.decided n r.body r.addr) ∧ (∀ n, ¬ s.reaches r.addr n → w n = []) ∧
      (∀ n : HeadNo,
        t.ports[n] =
          ((w n).take s.ports[n].credit).foldl (HeadPort.forward s.active.global.stall[n].toNat) s.ports[n] ∧
        t.headLinks[n] = s.headLinks[n] ++ ((w n).take s.ports[n].credit).map Prepared.record) ∧
      t = { s with
            ports := t.ports, headLinks := t.headLinks,
            inHand :=
              if ∀ n : HeadNo, (w n).length ≤ s.ports[n].credit then none
              else some (.deliver r (perHead fun n => (w n).drop s.ports[n].credit)) }) ∧
  (∀ (limit : Nat) (h : HeadPort) (p : Prepared),
    HeadPort.forward limit h p =
      { h with
        credit := h.credit - 1,
        beam := match p.beam with | .move q => q | .draw q _ => q | .text _ _ => h.beam,
        trail := h.trail ++
          [{ origin := p.origin,
             kind := match p.beam with | .move _ => .move | .draw _ _ => .draw | .text _ _ => .text,
             visible := match p.beam with | .move _ => false | .draw _ i => decide (i ≠ 0) | .text i _ => decide (i ≠ 0),
             snap := p.snap,
             pos := match p.beam with | .move q => q | .draw q _ => q | .text _ _ => h.beam,
             state := .sent }],
        timer :=
          if ∃ e ∈ h.trail, e.state = .sent then h.timer
          else if limit = 0 then .stopped else .running limit })

/-- While the input is held, every record offered waits in its turn and changes nothing else (that the model keeps the
waiting records in a list of its own is log entry 3); a directive that will reply, whether one is asked for or it always
replies, stays in hand while the reply queue has no free space, and when a selection of the REPLY source frees one it is
handed over, and the records that waited are taken after it in the order offered. -/
def Obligations.HeldInputTakesNoRecord : Prop :=
  (∀ (s : State) (r : Record), s.InputHeld → exec r.toInstr s = .next { s with offered := s.offered ++ [r] }) ∧
  (∀ (s : State) (h : DirHeader) (d : Directive) (i : Fin 8) (r : Reply) (rest : List Reply) (waiting : List Record),
    s.InputFree → Record.formOk (h.record d) = true → (h.want = true ∨ RepliesUnasked d) → s.replies = r :: rest →
    s.replies.length + (if s.reserved then 1 else 0) = 8 →
    exec (h.record d).toInstr s = .next { s with inHand := some (.directive h d) } ∧
    (s.Selects i → s.active.ring[i] = 4 →
      exec .selection { s with inHand := some (.directive h d), offered := waiting } =
        execAll ((h.record d :: waiting).map Record.toInstr) ({ s with replies := rest }.sends i (.reply r))))

/-! ## The context trackers -/

/-- A NAME taken by each tracker of the destination set, within the depth or over a gap. -/
def Obligations.NameSetsItsLevelInEachTracker : Prop :=
  ∀ (s : State) (a : FileAddr) (l : BitVec 3) (v : NameVal), s.InputFree → s.passState = .opened →
    1 ≤ l.toNat ∧ l.toNat ≤ 6 → (∃ n, s.reaches a n) →
    ∃ (t : State) (gaps : List HeadNo), exec (.name a l v) s = .next t ∧
      (∀ n : HeadNo, ¬ s.reaches a n → t.trackers[n] = s.trackers[n]) ∧
      (∀ n : HeadNo, s.reaches a n → l.toNat ≤ s.trackers[n].stack.length + 1 →
        t.trackers[n] =
          { s.trackers[n] with
            stack := s.trackers[n].stack.take (l.toNat - 1) ++ [.value v],
            poisoned := if l.toNat = 1 then false else s.trackers[n].poisoned }) ∧
      (∀ n : HeadNo, s.reaches a n → s.trackers[n].stack.length + 1 < l.toNat →
        t.trackers[n] =
          { s.trackers[n] with
            stack := s.trackers[n].stack ++
              List.replicate (l.toNat - 1 - s.trackers[n].stack.length) .unknown ++ [.value v],
            poisoned := true }) ∧
      gaps.Nodup ∧ (∀ n : HeadNo, n ∈ gaps ↔ s.reaches a n ∧ s.trackers[n].stack.length + 1 < l.toNat) ∧
      t = { (gaps.foldl (fun u _ => u.raise .nameGap) s) with trackers := t.trackers }

/-- A MENU-OPEN and an ITEM taken by each tracker of the destination set: the region opens with the kind the active MENU
table gives, with MENU-FORM from each tracker where a region was open and MENU-UNDEFINED from each where the menu is not
defined; the ITEM is taken as each tracker's menu region state gives, with MENU-FORM from each that is outside and
ITEM-RANGE from each whose menu has no such item. -/
def Obligations.MenuMarksOpenRegionsAndSetItems : Prop :=
  (∀ (s : State) (a : FileAddr) (m : MenuId), s.InputFree → s.passState = .opened → (∃ n, s.reaches a n) →
    ∃ (kind : RegionKind) (t : State) (inside reached : List HeadNo), exec (.menuOpen a m) s = .next t ∧
      (∀ e : MenuEntry, s.active.menu[m.toNat]? = some e →
        kind = (if e.kind = 1 then .fixed else if e.kind = 2 then .popup else .undefined)) ∧
      (s.active.menu[m.toNat]? = none → kind = .undefined) ∧
      (∀ n : HeadNo, ¬ s.reaches a n → t.trackers[n] = s.trackers[n]) ∧
      (∀ n : HeadNo, s.reaches a n → t.trackers[n] = { s.trackers[n] with region := .inside m kind none }) ∧
      inside.Nodup ∧ (∀ n : HeadNo, n ∈ inside ↔ s.reaches a n ∧ s.trackers[n].region ≠ .outside) ∧
      reached.Nodup ∧ (∀ n : HeadNo, n ∈ reached ↔ s.reaches a n ∧ kind = .undefined) ∧
      t = { reached.foldl (fun u _ => u.raise .menuUndefined) (inside.foldl (fun u _ => u.raise .menuForm) s) with
            trackers := t.trackers }) ∧
  (∀ (s : State) (a : FileAddr) (k : ItemNo), s.InputFree → s.passState = .opened → (∃ n, s.reaches a n) →
    ∃ (t : State) (outside beyond : List HeadNo), exec (.item a k) s = .next t ∧
      (∀ n : HeadNo, ¬ s.reaches a n → t.trackers[n] = s.trackers[n]) ∧
      (∀ n : HeadNo, s.reaches a n →
        (s.trackers[n].region = .outside → t.trackers[n] = s.trackers[n]) ∧
        (∀ m it, s.trackers[n].region = .inside m .undefined it → t.trackers[n] = s.trackers[n]) ∧
        (∀ m kind it, s.trackers[n].region = .inside m kind it → kind ≠ .undefined →
          (∀ (e : MenuEntry) (i : ItemEntry), s.active.menu[m.toNat]? = some e → k.toNat < e.countLess1.toNat + 1 →
            s.active.item[e.first.toNat + k.toNat]? = some i →
            t.trackers[n] =
              { s.trackers[n] with region := .inside m kind (some ⟨k, decide (i.enabled = false)⟩) }) ∧
          (¬ (∃ e : MenuEntry, s.active.menu[m.toNat]? = some e ∧ k.toNat < e.countLess1.toNat + 1) →
            t.trackers[n] = { s.trackers[n] with region := .inside m kind none }))) ∧
      outside.Nodup ∧ (∀ n : HeadNo, n ∈ outside ↔ s.reaches a n ∧ s.trackers[n].region = .outside) ∧
      beyond.Nodup ∧
      (∀ n : HeadNo, n ∈ beyond ↔ s.reaches a n ∧ ∃ m kind it, s.trackers[n].region = .inside m kind it ∧
        kind ≠ .undefined ∧ ¬ ∃ e : MenuEntry, s.active.menu[m.toNat]? = some e ∧ k.toNat < e.countLess1.toNat + 1) ∧
      t = { beyond.foldl (fun u _ => u.raise .itemRange) (outside.foldl (fun u _ => u.raise .menuForm) s) with
            trackers := t.trackers })

/-- A MENU-CLOSE taken by each tracker of the destination set: inside, the region ends and the records after it carry
the name snapshot of the stack as it stands; outside, MENU-FORM, once for each tracker. -/
def Obligations.MenuCloseClosesTheRegion : Prop :=
  ∀ (s : State) (a : FileAddr), s.InputFree → s.passState = .opened → (∃ n, s.reaches a n) →
    ∃ (t : State) (outside : List HeadNo), exec (.menuClose a) s = .next t ∧
      (∀ n : HeadNo, ¬ s.reaches a n → t.trackers[n] = s.trackers[n]) ∧
      (∀ n : HeadNo, s.reaches a n →
        t.trackers[n] = { s.trackers[n] with region := .outside } ∧
        t.trackers[n].snapshot = .name s.trackers[n].stack s.trackers[n].poisoned) ∧
      outside.Nodup ∧ (∀ n : HeadNo, n ∈ outside ↔ s.reaches a n ∧ s.trackers[n].region = .outside) ∧
      t = { (outside.foldl (fun u _ => u.raise .menuForm) s) with trackers := t.trackers }

/-! ## The stream editor and the slot expansions -/

/-- A live pattern of a kind covers the path at head `n` (R151): 1 HIGHLIGHT, 2 BLINK, 3 BLANK. -/
def Sys2Proof.Machine.State.PatternCovers (s : State) (kind : BitVec 2) (n : HeadNo) (path : Path) : Prop :=
  ∃ k : Fin 16, s.flags[k] = true ∧ s.active.pattern[k].kind = kind ∧ s.active.pattern[k].mask.getLsbD n.val = true ∧
    s.active.pattern[k].depth.toNat ≤ path.length ∧
    ∀ j : Fin 6, j.val < s.active.pattern[k].depth.toNat → s.active.pattern[k].levels[j].care = true →
      path[j.val]? = some s.active.pattern[k].levels[j].value

/-- A beam record blanked (R153): what is left of it. -/
def Sys2Proof.Beam.blanked : Beam → List Beam
  | .move p => [.move p]
  | .draw p _ => [.move p]
  | .text _ _ => []

/-- A beam record whose intensity, if it is not 0, becomes `v` (R154, R155). -/
def Sys2Proof.Beam.lit (v : Intensity) : Beam → Beam
  | .move p => .move p
  | .draw p i => .draw p (if i = 0 then 0 else v)
  | .text i cs => .text (if i = 0 then 0 else v) cs

/-- Outside every region, with an unpoisoned path: blank, highlight and blink in their order of precedence; with a
poisoned one no edit. Asked of the active bank: no defined pattern has depth 7, as validation has it (R173); a pattern
of kind NONE may hold any depth. -/
def Obligations.EditsOutsideMenuRegions : Prop :=
  ∀ (s : State) (n : HeadNo) (a : FileAddr) (b : Beam), s.trackers[n].region = .outside →
    (∀ k : Fin 16, s.active.pattern[k].kind ≠ 0 → s.active.pattern[k].depth.toNat ≤ 6) →
    (s.trackers[n].poisoned = true → s.prepBeam a b n = [⟨b, .stream a, .name s.trackers[n].stack true⟩]) ∧
    (∀ path : Path, s.trackers[n].poisoned = false → s.trackers[n].stack = path.map .value →
      ∀ lit : Beam,
        ((s.PatternCovers 1 n path ∨ ∃ i, s.chans[n].highlight = some i ∧ i <+: path) → lit = b.lit 7) →
        (¬ (s.PatternCovers 1 n path ∨ ∃ i, s.chans[n].highlight = some i ∧ i <+: path) → lit = b) →
        ∀ out : List Beam,
          (s.PatternCovers 3 n path → out = b.blanked) →
          (¬ s.PatternCovers 3 n path → s.PatternCovers 2 n path → 8 ≤ s.passCount.toNat % 16 → out = lit.blanked) →
          (¬ s.PatternCovers 3 n path → ¬ (s.PatternCovers 2 n path ∧ 8 ≤ s.passCount.toNat % 16) →
            out = [lit]) →
          s.prepBeam a b n = out.map fun x => ⟨x, .stream a, .name (path.map .value) false⟩)

/-- Inside a region: dim for a disabled item of a FIXED or POPUP menu and no other edit; a POPUP region is shown only
at its owner's head with that pop-up open, moved to the anchor. -/
def Obligations.EditsInsideMenuRegions : Prop :=
  ∀ (s : State) (n : HeadNo) (a : FileAddr) (b : Beam) (m : MenuId) (kind : RegionKind) (item : Option ItemMark),
    s.trackers[n].region = .inside m kind item →
    (kind = .undefined → s.prepBeam a b n = [⟨b, .stream a, .menu m kind item⟩]) ∧
    (kind = .fixed → s.prepBeam a b n =
      [⟨if (∃ k, item = some ⟨k, true⟩) then b.lit s.active.global.dim else b, .stream a, .menu m kind item⟩]) ∧
    (kind = .popup →
      (¬ (∃ e p, s.active.menu[m.toNat]? = some e ∧ e.owner.toNat = n.val ∧ s.chans[n].state = .popup p ∧ p.menu = m) →
        s.prepBeam a b n = []) ∧
      (∀ e p, s.active.menu[m.toNat]? = some e → e.owner.toNat = n.val → s.chans[n].state = .popup p → p.menu = m →
        ∀ moved : Beam,
          (∀ q, b = .move q → moved =
            .move ⟨clampCoord (q.x.toInt + p.anchor.x.toInt), clampCoord (q.y.toInt + p.anchor.y.toInt)⟩) →
          (∀ q i, b = .draw q i → moved =
            .draw ⟨clampCoord (q.x.toInt + p.anchor.x.toInt), clampCoord (q.y.toInt + p.anchor.y.toInt)⟩ i) →
          (∀ i cs, b = .text i cs → moved = b) →
          s.prepBeam a b n =
            [⟨if (∃ k, item = some ⟨k, true⟩) then moved.lit s.active.global.dim else moved, .stream a,
              .menu m kind item⟩]))

/-- A slot's records as the Stream Editor leaves them for head `n`: each is edited as a record of the stream at that
moment would be, and keeps its own origin (R158). -/
def Sys2Proof.Machine.State.edited (s : State) (n : HeadNo) (records : List (Beam × Origin)) : List Prepared :=
  records.flatMap fun x => (s.prepBeam 0 x.1 n).map fun y => { y with origin := x.2 }

/-- The cross: twelve records about the tracking position, each end point clamped and all edited alike, for a channel
in TRACK; nothing for a channel in another state or inside a POPUP region. A clamp brings a coordinate to the nearer end
of −2048 to 2047. -/
def Obligations.CrossExpandsIntoTwelveRecords : Prop :=
  (∀ k : Int, (clampCoord k).toInt = if k < -2048 then -2048 else if 2047 < k then 2047 else k) ∧
  ∀ (s : State) (n : HeadNo),
    ((∀ t, s.chans[n].state ≠ .track t) → s.prepSlot .cross n = []) ∧
    ((∃ m it, s.trackers[n].region = .inside m .popup it) → s.prepSlot .cross n = []) ∧
    (∀ t, s.chans[n].state = .track t → (∀ m it, s.trackers[n].region ≠ .inside m .popup it) →
      s.prepSlot .cross n = s.edited n
        (let c := t.pos
         let half : Int := (s.active.profile[n].a.toNat / 2 : Nat)
         let full : Int := (s.active.profile[n].a.toNat : Nat)
         let east (k : Int) : Point := ⟨clampCoord (c.x.toInt + k), c.y⟩
         let north (k : Int) : Point := ⟨c.x, clampCoord (c.y.toInt + k)⟩
         [(.move c, .cross .e none), (.draw (east half) 7, .cross .e (some .inner)),
          (.draw (east full) 7, .cross .e (some .outer)),
          (.move c, .cross .n none), (.draw (north half) 7, .cross .n (some .inner)),
          (.draw (north full) 7, .cross .n (some .outer)),
          (.move c, .cross .w none), (.draw (east (-half)) 7, .cross .w (some .inner)),
          (.draw (east (-full)) 7, .cross .w (some .outer)),
          (.move c, .cross .s none), (.draw (north (-half)) 7, .cross .s (some .inner)),
          (.draw (north (-full)) 7, .cross .s (some .outer))]))

/-- The readout: a MOVE to the slot's point and a TEXT of 21 characters, edited alike, for a channel in TRACK, nothing
for another state or inside a POPUP region; its characters: sign, feet, inches and eighths, asterisks beyond 999 feet,
question marks for an absent scale (codes of section 12.5); its eighths: the exact product, divided by 256 toward
zero, within ±1,048,304 (the bound of the formula; log entry 21). -/
def Obligations.ReadoutExpandsIntoMoveAndText : Prop :=
  (∀ (s : State) (n : HeadNo) (p : Point),
    ((∀ t, s.chans[n].state ≠ .track t) → s.prepSlot (.readout p) n = []) ∧
    ((∃ m it, s.trackers[n].region = .inside m .popup it) → s.prepSlot (.readout p) n = []) ∧
    (∀ t, s.chans[n].state = .track t → (∀ m it, s.trackers[n].region ≠ .inside m .popup it) →
      s.prepSlot (.readout p) n =
        s.edited n [(.move p, .readout), (.text 7 (readoutText s.active t.view t.pos), .readout)] ∧
      (readoutText s.active t.view t.pos).length = 21)) ∧
  ((∀ (b : Bank) (view : NameVal) (p : Point),
    readoutText b view p =
      axisField 88 (readoutEighths b view p).1 ++ [32] ++ axisField 89 (readoutEighths b view p).2) ∧
  (∀ c : Char8, axisField c none = [c, 43, 63, 63, 63, 45, 63, 63, 45, 63]) ∧
  (∀ (c : Char8) (e : Int), 999 < e.natAbs / 96 →
    axisField c (some e) = [c, if 0 ≤ e then 43 else 45, 42, 42, 42, 45, 42, 42, 45, 42]) ∧
  (∀ (c : Char8) (e : Int), e.natAbs / 96 ≤ 999 →
    ∃ f1 f2 f3 i1 i2 g : Nat, f1 < 10 ∧ f2 < 10 ∧ f3 < 10 ∧ i1 < 10 ∧ i2 < 10 ∧ g < 8 ∧
      100 * f1 + 10 * f2 + f3 = e.natAbs / 96 ∧ 10 * i1 + i2 = e.natAbs % 96 / 8 ∧ g = e.natAbs % 8 ∧
      axisField c (some e) =
        [c, if 0 ≤ e then 43 else 45, BitVec.ofNat 8 (48 + f1), BitVec.ofNat 8 (48 + f2), BitVec.ofNat 8 (48 + f3), 45,
         BitVec.ofNat 8 (48 + i1), BitVec.ofNat 8 (48 + i2), 45, BitVec.ofNat 8 (48 + g)])) ∧
  ((∀ (p o : Coord) (k : Word), eighths p o k =
    if k = 0 then none else some (((p.toInt - o.toInt) * (k.toNat : Int)).tdiv 256)) ∧
  (∀ (p o : Coord) (k : Word) (e : Int), eighths p o k = some e → -1048304 ≤ e ∧ e ≤ 1048304) ∧
  (∀ (b : Bank) (view : NameVal) (p : Point), 15 < view.toNat → readoutEighths b view p = (none, none)) ∧
  (∀ (b : Bank) (view : NameVal) (p : Point) (k : Fin 16), view.toNat = k.val →
    readoutEighths b view p =
      (eighths p.x b.scale[k].x0 b.scale[k].sx, eighths p.y b.scale[k].y0 b.scale[k].sy)))

/-! ## The head ports -/

/-- A completion at an UP head with a SENT entry: the oldest SENT entry leaves or becomes DRAWN, the oldest DRAWN
leaves beyond L, the credit rises by one and the timer restarts or stops, also while the input is held by a directive or
for other heads; a record that waits in hand for this head's credit is then forwarded. -/
def Obligations.CompletionRetiresTheOldestSentEntry : Prop :=
  (∀ (s : State) (n : HeadNo) (drawn sent : List TrailEntry) (e : TrailEntry), s.InputOk →
    (∀ r w, s.inHand = some (.deliver r w) → w[n] = []) →
    s.ports[n].state = .up → s.ports[n].trail = drawn ++ e :: sent → (∀ x ∈ drawn, x.state = .drawn) →
    (∀ x ∈ e :: sent, x.state = .sent) → drawn.length ≤ s.active.profile[n].l.toNat →
    exec (.completion n) s = .next
      { s with
        ports := s.ports.set n
          { s.ports[n] with
            credit := s.ports[n].credit + 1,
            trail :=
              (if e.visible = true then
                 (drawn ++ [{ e with state := .drawn }]).drop (drawn.length + 1 - s.active.profile[n].l.toNat)
               else drawn) ++ sent,
            timer :=
              if sent = [] then .stopped
              else if s.active.global.stall[n] = 0 then .stopped
              else .running s.active.global.stall[n].toNat } }) ∧
  (∀ (s : State) (n : HeadNo) (r : Record) (p : Prepared) (ps : List Prepared) (t : State), s.offered = [] →
    s.inHand = none → s.ports[n].state = .up → s.ports[n].credit = 0 → (∃ e ∈ s.ports[n].trail, e.state = .sent) →
    exec (.completion n) s = .next t →
    exec (.completion n) { s with inHand := some (.deliver r (Vector.set (.replicate 4 []) n (p :: ps))) } = .next
      { t with
        ports := t.ports.set n (t.ports[n].forward s.active.global.stall[n].toNat p),
        headLinks := t.headLinks.set n (t.headLinks[n] ++ [p.record]),
        inHand := if ps = [] then none else some (.deliver r (Vector.set (.replicate 4 []) n ps)) })

/-- A completion at an UP head with no SENT entry raises STRAY-COMPLETION and changes nothing else (R41); at a DOWN head
it raises LATE-COMPLETION and changes nothing else (R45). -/
def Obligations.StrayAndLateCompletionsOnlyCount : Prop :=
  (∀ (s : State) (n : HeadNo), s.ports[n].state = .up → (∀ e ∈ s.ports[n].trail, e.state = .drawn) →
    exec (.completion n) s = .next (s.raise .strayCompletion)) ∧
  (∀ (s : State) (n : HeadNo), s.ports[n].state = .down →
    exec (.completion n) s = .next (s.raise .lateCompletion))

/-- What the head-down notice leaves of a channel and its queue (R84, R81). -/
def Sys2Proof.Machine.afterHeadDown (c : PenChannel) (q : List ChannelReport) : PenChannel × List ChannelReport :=
  let aborts (d : PenChannel) : PenChannel × List ChannelReport :=
    if q.length < 4 then ({ d with state := .idle }, q ++ [.aborted .headDown])
    else ({ d with state := .wait (.aborted .headDown) .idle }, q)
  match c.state with
  | .off | .idle => (c, q)
  | .held => ({ c with state := .idle }, q)
  | .gather | .popup _ => aborts c.emptied
  | .track _ => aborts c
  | .wait _ _ => ({ c with state := .wait (.aborted .headDown) .idle }, q)

/-- The stall timer of an UP head expires: trail empty, credit 8, timer stopped, head DOWN, one HEAD-DOWN fault, the
head-down notice to the channel, and its deliveries in hand end; a directive in hand goes on waiting. -/
def Obligations.StallExpiryTakesTheHeadDown : Prop :=
  ∀ (s : State) (n : HeadNo) (ms : Nat), s.ports[n].state = .up → s.ports[n].timer = .running ms →
    (s.offered = [] ∧ (s.inHand = none ∨ ∃ r w, s.inHand = some (.deliver r w)) ∨
      (∃ h d, s.inHand = some (.directive h d)) ∧ ¬ s.HasReplySpace) →
    exec (.stallTimerExpiry n) s = .next
      { s.raise .headDown with
        ports := s.ports.set n { s.ports[n] with state := .down, credit := 8, trail := [], timer := .stopped },
        chans := s.chans.set n (afterHeadDown s.chans[n] s.queues[n]).1,
        queues := s.queues.set n (afterHeadDown s.chans[n] s.queues[n]).2,
        inHand :=
          match s.inHand with
          | some (.deliver r w) =>
            if ∀ m : HeadNo, m ≠ n → w[m] = [] then none else some (.deliver r (w.set n []))
          | x => x }

/-- RESTART-HEAD: refused for a number above 3 or an UP head; a DOWN head comes UP with credit 8, an empty trail and
its timer stopped, its beam position as it stood. -/
def Obligations.RestartHeadBringsTheHeadUp : Prop :=
  ∀ (h : DirHeader) (head : BitVec 8) (s : State), s.Takes h →
    (3 < head.toNat → exec (.restartHead h head) s = .next (s.refuses h 13 .badChannel)) ∧
    (∀ n : HeadNo, head.toNat = n.val →
      (s.ports[n].state = .up → exec (.restartHead h head) s = .next (s.refuses h 13 .badState)) ∧
      (s.ports[n].state = .down → exec (.restartHead h head) s = .next
        ({ s with
           ports := s.ports.set n
             { s.ports[n] with state := .up, credit := 8, trail := [], timer := .stopped } }.did h 13)))

/-! ## The pen lines and pick attempts -/

/-- The struck set: the DRAWN entries, oldest first, at weight 1, then the entry in drawing at weight 2; SENT entries
younger than it are not struck, and a strike at an empty trail changes nothing in any state. -/
def Obligations.StruckSetIsDrawnThenInDrawing : Prop :=
  (∀ (drawn sent : List TrailEntry), (∀ e ∈ drawn, e.state = .drawn) → (∀ e ∈ sent, e.state = .sent) →
    struckSet (drawn ++ sent) = drawn.map (fun e => (e, 1)) ++ (sent.take 1).map (fun e => (e, 2))) ∧
  (∀ (s : State) (n : HeadNo), s.ports[n].trail = [] → exec (.strike n) s = .next s)

/-- Which identity a struck entry yields in GATHER; the hit list of a strike names each identity once, with the
greatest weight among the entries that yield it and the fields of the first entry of that weight, in the order in which
the identities first appear in the struck set: where one stands before another, some entry yields it that no entry
yielding the other precedes. -/
def Obligations.HitListNamesEachIdentityOnce : Prop :=
  (∀ (b : Bank) (d : Nat) (set : BitVec 2) (e : TrailEntry),
    (∀ a (path : Path), e.visible = true → e.origin = .stream a → e.snap = .name (path.map .value) false → path ≠ [] →
      b.passes set path = true → e.yields b d set = some (.pick (path.take d), some path, a)) ∧
    (∀ a m k, e.visible = true → e.origin = .stream a → e.snap = .menu m .fixed (some ⟨k, false⟩) →
      e.yields b d set = some (.menu m k, none, a)) ∧
    (e.visible = false → e.yields b d set = none) ∧
    ((∀ a, e.origin ≠ .stream a) → e.yields b d set = none) ∧
    (∀ path, e.snap = .name path true → e.yields b d set = none) ∧
    (∀ path : Path, e.snap = .name (path.map .value) false → path = [] ∨ b.passes set path = false →
      e.yields b d set = none) ∧
    (∀ m kind it, e.snap = .menu m kind it → kind ≠ .fixed ∨ it = none ∨ (∃ k, it = some ⟨k, true⟩) →
      e.yields b d set = none)) ∧
  (∀ (v : View) (set : BitVec 2),
    ((hitList v set).map (·.ident)).Nodup ∧
    (∀ x ∈ hitList v set, ∃ pre e post, struckSet v.port.trail = pre ++ (e, x.weight) :: post ∧
      e.yields v.bank v.bank.profile[v.n].d.toNat set = some (x.ident, x.sample, x.addr) ∧ x.pos = e.pos ∧
      x.pass = v.pass ∧
      (∀ y ∈ pre, ∀ z, y.1.yields v.bank v.bank.profile[v.n].d.toNat set = some z → z.1 = x.ident → y.2 < x.weight) ∧
      (∀ y ∈ post, ∀ z, y.1.yields v.bank v.bank.profile[v.n].d.toNat set = some z → z.1 = x.ident → y.2 ≤ x.weight)) ∧
    (∀ y ∈ struckSet v.port.trail, ∀ z, y.1.yields v.bank v.bank.profile[v.n].d.toNat set = some z →
      ∃ x ∈ hitList v set, x.ident = z.1) ∧
    (hitList v set).Pairwise fun x y => ∃ pre e post, struckSet v.port.trail = pre ++ e :: post ∧
      (∃ z, e.1.yields v.bank v.bank.profile[v.n].d.toNat set = some z ∧ z.1 = x.ident) ∧
      ∀ f ∈ pre, ∀ z, f.1.yields v.bank v.bank.profile[v.n].d.toNat set = some z → z.1 ≠ y.ident)

/-- A strike in GATHER: the candidate table takes the hit list one element at a time, and the last strike position
moves to the entry in drawing or else the youngest DRAWN entry. -/
def Obligations.StrikeInGatherHandsOnTheHitList : Prop :=
  ∀ (s : State) (n : HeadNo) (e : TrailEntry), s.ports[n].state = .up → s.chans[n].state = .gather →
    (struckSet s.ports[n].trail).getLast?.map (·.1) = some e →
    exec (.strike n) s = .next
      (s.withChan n
        { (hitList (s.view n) s.chans[n].filterSet).foldl (PenChannel.takeHit s.active.profile[n].lagAllocate)
            s.chans[n] with lastStrike := some e.pos })

/-- One element of a hit list: a known identity gains hits; a new one takes the lowest invalid entry, or the tree's
victim with the crowded flag set, where it may allocate; the entry is touched. Which marks a touch of each entry sets
(Q and R at 0 and 2 or at 1 and 3), and which entry is the victim: of the pair P does not name, the one its mark does
not name. -/
def Obligations.CandidateTableTakesAHit : Prop :=
  (∀ (lag : Bool) (c : PenChannel) (h : Hit),
    (∀ (i : Fin 4) (e : Candidate), c.table[i] = some e → e.ident = h.ident →
      (∀ (j : Fin 4) (f : Candidate), c.table[j] = some f → f.ident = h.ident → j = i) →
      c.takeHit lag h =
        { c with
          table := c.table.set i
            (some
              { e with
                hits := min 255 (e.hits + h.weight),
                passesSeen := if e.lastPass = h.pass then e.passesSeen else min 255 (e.passesSeen + 1),
                lastPass := h.pass }),
          tree := c.tree.touch i }) ∧
    ((∀ (i : Fin 4) (e : Candidate), c.table[i] = some e → e.ident ≠ h.ident) →
      (h.weight ≠ 2 → lag = false → c.takeHit lag h = c) ∧
      (h.weight = 2 ∨ lag = true →
        (∀ i : Fin 4, c.table[i] = none → (∀ j : Fin 4, j < i → c.table[j] ≠ none) →
          c.takeHit lag h =
            { c with
              table := c.table.set i
                (some ⟨h.ident, h.sample, h.addr, h.pos, h.weight, 1, h.pass⟩),
              tree := c.tree.touch i }) ∧
        ((∀ i : Fin 4, c.table[i] ≠ none) →
          c.takeHit lag h =
            { c with
              table := c.table.set c.tree.victim
                (some ⟨h.ident, h.sample, h.addr, h.pos, h.weight, 1, h.pass⟩),
              tree := c.tree.touch c.tree.victim, crowded := true })))) ∧
  (∀ (p : Pair) (q1 r3 : Bool),
    Tree.touch ⟨p, q1, r3⟩ 0 = ⟨.low, false, r3⟩ ∧ Tree.touch ⟨p, q1, r3⟩ 1 = ⟨.low, true, r3⟩ ∧
    Tree.touch ⟨p, q1, r3⟩ 2 = ⟨.high, q1, false⟩ ∧ Tree.touch ⟨p, q1, r3⟩ 3 = ⟨.high, q1, true⟩ ∧
    Tree.victim ⟨.high, true, r3⟩ = 0 ∧ Tree.victim ⟨.high, false, r3⟩ = 1 ∧
    Tree.victim ⟨.low, q1, true⟩ = 2 ∧ Tree.victim ⟨.low, q1, false⟩ = 3)

/-- The struck set has a visible entry of a segment of an arm of the cross (R60). -/
def Sys2Proof.Machine.ArmStruck (struck : List (TrailEntry × Nat)) (a : Arm) (seg : Segment) : Prop :=
  ∃ x ∈ struck, x.1.visible = true ∧ x.1.origin = .cross a (some seg)

/-- An arm's level before and after a strike: it rises to the greatest level struck, outer over inner, and never falls
(R60, R134). -/
def Sys2Proof.Machine.ArmRaised (struck : List (TrailEntry × Nat)) (a : Arm) (old new : ArmLevel) : Prop :=
  (old = .outer ∨ ArmStruck struck a .outer → new = .outer) ∧
  (old ≠ .outer → ¬ ArmStruck struck a .outer → old = .inner ∨ ArmStruck struck a .inner → new = .inner) ∧
  (old = .none → ¬ ArmStruck struck a .outer → ¬ ArmStruck struck a .inner → new = .none)

/-- The struck set has an entry of a weight that counts for item `k` of pop-up menu `m`: visible, of origin STREAM, of
an enabled item of that menu's POPUP region (R59). -/
def Sys2Proof.Machine.ItemStruck (struck : List (TrailEntry × Nat)) (m : MenuId) (k : Fin 32) (weight : Nat) : Prop :=
  ∃ x ∈ struck, x.2 = weight ∧ x.1.visible = true ∧ (∃ a, x.1.origin = .stream a) ∧
    x.1.snap = .menu m .popup (some ⟨BitVec.ofFin k, false⟩)

/-- A strike outside GATHER: IDLE and HELD move the last strike position; TRACK raises each arm to the greatest level
struck; POPUP with the button held raises each item's counter, up to 255, by the greatest weight at which that item was
struck; POPUP with the button released, OFF, WAIT and a DOWN head take nothing. -/
def Obligations.StrikeOutsideGather : Prop :=
  ∀ (s : State) (n : HeadNo),
    (s.ports[n].state = .down → exec (.strike n) s = .next s) ∧
    (s.chans[n].state = .off ∨ (∃ r q, s.chans[n].state = .wait r q) → exec (.strike n) s = .next s) ∧
    (∀ e, s.ports[n].state = .up → s.chans[n].state = .idle ∨ s.chans[n].state = .held →
      (struckSet s.ports[n].trail).getLast?.map (·.1) = some e →
      exec (.strike n) s = .next (s.withChan n { s.chans[n] with lastStrike := some e.pos })) ∧
    (∀ t, s.ports[n].state = .up → s.chans[n].state = .track t →
      ∃ arms : Arms,
        exec (.strike n) s = .next (s.withChan n { s.chans[n] with state := .track { t with arms := arms } }) ∧
        ArmRaised (struckSet s.ports[n].trail) .e t.arms.e arms.e ∧
        ArmRaised (struckSet s.ports[n].trail) .n t.arms.n arms.n ∧
        ArmRaised (struckSet s.ports[n].trail) .w t.arms.w arms.w ∧
        ArmRaised (struckSet s.ports[n].trail) .s t.arms.s arms.s) ∧
    (∀ p, s.ports[n].state = .up → s.chans[n].state = .popup p → s.chans[n].button = .held →
      ∃ tally : Vector Nat 32,
        exec (.strike n) s = .next (s.withChan n { s.chans[n] with state := .popup { p with tally := tally } }) ∧
        ∀ k : Fin 32,
          (ItemStruck (struckSet s.ports[n].trail) p.menu k 2 → tally[k] = min 255 (p.tally[k] + 2)) ∧
          (¬ ItemStruck (struckSet s.ports[n].trail) p.menu k 2 → ItemStruck (struckSet s.ports[n].trail) p.menu k 1 →
            tally[k] = min 255 (p.tally[k] + 1)) ∧
          (¬ ItemStruck (struckSet s.ports[n].trail) p.menu k 2 →
            ¬ ItemStruck (struckSet s.ports[n].trail) p.menu k 1 → tally[k] = p.tally[k])) ∧
    (∀ p, s.chans[n].state = .popup p → s.chans[n].button = .released → exec (.strike n) s = .next s)

/-- A tip event sets the level first. TIP-DOWN begins a pick attempt in IDLE with the head UP, and elsewhere sets the
level only. TIP-UP takes HELD to IDLE, offers a MISS from an empty GATHER and a TRACK-END from TRACK, and notes the
release in POPUP; elsewhere it sets the level only. That a tip already at its level makes no event is log entry 5. -/
def Obligations.TipEventsInEachState : Prop :=
  (∀ (s : State) (n : HeadNo),
    (s.chans[n].tip = .down → exec (.tipDown n) s = .next s) ∧
    (s.chans[n].tip = .up → s.ports[n].state = .up → s.chans[n].state = .idle →
      exec (.tipDown n) s = .next (s.withChan n
        { s.chans[n].emptied with state := .gather, tip := .down, highlight := none })) ∧
    (s.chans[n].tip = .up → ¬ (s.ports[n].state = .up ∧ s.chans[n].state = .idle) →
      exec (.tipDown n) s = .next (s.withChan n { s.chans[n] with tip := .down }))) ∧
  (∀ (s : State) (n : HeadNo),
    (s.chans[n].tip = .up → exec (.tipUp n) s = .next s) ∧
    (s.chans[n].tip = .down →
      let c : PenChannel := { s.chans[n] with tip := .up }
      (s.ports[n].state = .down ∨ s.chans[n].state = .off ∨ s.chans[n].state = .idle ∨
          (∃ r q, s.chans[n].state = .wait r q) →
        exec (.tipUp n) s = .next (s.withChan n c)) ∧
      (s.ports[n].state = .up →
        (s.chans[n].state = .held → exec (.tipUp n) s = .next (s.withChan n { c with state := .idle })) ∧
        (s.chans[n].state = .gather → s.chans[n].Empty →
          exec (.tipUp n) s = .next (s.offers n c.emptied (.miss s.passCount) .idle)) ∧
        (∀ t, s.chans[n].state = .track t →
          exec (.tipUp n) s = .next (s.offers n c (.trackEnd t.pos) .idle)) ∧
        (∀ p, s.chans[n].state = .popup p →
          exec (.tipUp n) s = .next (s.withChan n
            { c with state := .popup { p with slot := { p.slot with note := true } } })))))

/-- The winner of a resolution is the first of the valid entries in the order of six keys. -/
def Obligations.WinnerIsFirstInTheOrder : Prop :=
  ∀ (b : Bank) (c : PenChannel),
    (c.winner b = none ↔ c.Empty) ∧
    (∀ w, c.winner b = some w → ∃ i : Fin 4, c.table[i] = some w ∧
      ∀ (j : Fin 4) (d : Candidate), j ≠ i → c.table[j] = some d → goesBefore b w i.val d j.val)

/-- What a PICK resolution leaves and offers: the PICK report, the highlight slot, the emptied table and the
successor. -/
def Sys2Proof.Machine.State.picks (s : State) (n : HeadNo) (c : PenChannel) (pass : PassNo) (w : Candidate)
    (path : Path) (close : Bool) (succ : Successor) : State :=
  s.offers n
    { c.emptied with
      highlight := if (s.active.classOf (w.sample.getD [])).highlight = true then some path else c.highlight }
    (.pick
      { pass := pass, path := path, addr := w.addr, hits := w.hits, passesSeen := w.passesSeen,
        priority := (s.active.classOf (w.sample.getD [])).priority, pos := w.pos, closeCall := close,
        crowded := c.crowded })
    succ

/-- What a choice of item `k` of fixed menu `m` by winner `w` leaves and offers, with its action taken: the MENU report
with the choice code of a good choice or without one for a void choice, the emptied table, the successor, and SET-FILTER
or TOGGLE-PATTERN of a good choice (R79, R106, R107). -/
def Sys2Proof.Machine.State.ChoosesFixed (s : State) (n : HeadNo) (c : PenChannel) (pass : PassNo) (w : Candidate)
    (m : MenuId) (k : ItemNo) (close : Bool) (succ : Successor) (v : State) : Prop :=
  ∀ good : Option ItemEntry,
    (∀ it, good = some it ↔ ∃ e : MenuEntry, s.active.menu[m.toNat]? = some e ∧ e.kind = 1 ∧
      k.toNat < e.countLess1.toNat + 1 ∧ s.active.item[e.first.toNat + k.toNat]? = some it ∧ it.enabled = true) →
    let t := s.offers n c.emptied
      (.menu { pass := pass, menu := m, item := k, code := good.map (·.code),
               source := .fixed w.hits close c.crowded }) succ
    (good = none → v = t) ∧
    (∀ it, good = some it → it.action = 0 ∨ it.action = 1 ∨ 5 ≤ it.action.toNat → v = t) ∧
    (∀ it, good = some it → it.action = 2 →
      v = t.withChan n { t.chans[n] with filterSet := it.arg.setWidth 2 }) ∧
    (∀ it, good = some it → it.action = 3 →
      v = { t with flags := t.flags.set it.arg.toFin (!t.flags[it.arg.toFin]) })

/-- Candidate `w` of entry `i` wins the table, and the close-call flag: some other entry's hits are at least the
winner's less 1 (R76, R77). -/
def Sys2Proof.Machine.State.Wins (s : State) (c : PenChannel) (i : Fin 4) (w : Candidate) (close : Bool) : Prop :=
  c.table[i] = some w ∧
  (∀ (j : Fin 4) (d : Candidate), j ≠ i → c.table[j] = some d → goesBefore s.active w i.val d j.val ∧ d ≠ w) ∧
  (close = true ↔ ∃ (r : Candidate) (k : Fin 4), k ≠ i ∧ c.table[k] = some r ∧ w.hits ≤ r.hits + 1)

/-- A TIP-UP in GATHER with a winner, be it alone in the table or over other candidates: a release resolution with
successor IDLE, the close-call flag comparing the other entries' hits. A PICK winner is reported with its fields; a MENU
winner with the choice code of a good choice or without one for a void choice, and the item's action is taken. -/
def Obligations.ReleaseResolutionReportsTheWinner : Prop :=
  ∀ (s : State) (n : HeadNo) (i : Fin 4) (w : Candidate) (close : Bool), s.chans[n].tip = .down →
    s.ports[n].state = .up → s.chans[n].state = .gather → s.Wins s.chans[n] i w close →
    (∀ path, w.ident = .pick path →
      exec (.tipUp n) s = .next (s.picks n { s.chans[n] with tip := .up } s.passCount w path close .idle)) ∧
    (∀ m k, w.ident = .menu m k →
      ∃ v, exec (.tipUp n) s = .next v ∧
        s.ChoosesFixed n { s.chans[n] with tip := .up } s.passCount w m k close .idle v)

/-- The state `b`, in which channel `n` has just been restored from `slot`, reconciled with the tip level (R122): the
state `v` after the tip events that bring the level noted at the opening to the present one. -/
def Sys2Proof.Machine.State.Reconciled (b : State) (n : HeadNo) (slot : SaveSlot) (v : State) : Prop :=
  (slot.Quiet b.chans[n].tip → v = b) ∧
  (slot.note = true → b.chans[n].tip = .up →
    exec (.tipUp n) (b.withChan n { b.chans[n] with tip := .down }) = .next v) ∧
  (slot.note = false → slot.tipAtOpening = .up → b.chans[n].tip = .down →
    exec (.tipDown n) (b.withChan n { b.chans[n] with tip := .up }) = .next v) ∧
  (slot.note = true → b.chans[n].tip = .down →
    ∃ w, exec (.tipUp n) b = .next w ∧ exec (.tipDown n) w = .next v)

/-- Item `k` is the one a tally chooses: its counter is the highest, the lowest number of equals (R118). -/
def Sys2Proof.Machine.Popup.Chooses (p : Popup) (k : Fin 32) : Prop :=
  0 < p.tally[k] ∧ (∀ j : Fin 32, p.tally[j] ≤ p.tally[k]) ∧ ∀ j : Fin 32, j < k → p.tally[j] < p.tally[k]

/-- The choice of item `k` of the pop-up `p` open at channel `n`, which is `c` (R119, R120), and the state `v` it leaves.
With room in the queue the MENU report is appended and the action of a good choice follows: REPORT (a void choice is
taken so), SET-FILTER and TOGGLE-PATTERN restore the saved activity; REPORT-AND-CANCEL and TRACK-HERE do not. Without
room the channel waits with the table and the save slot discarded, and SET-FILTER and TOGGLE-PATTERN still act. -/
def Sys2Proof.Machine.State.ChoosesPopup (s : State) (n : HeadNo) (c : PenChannel) (p : Popup) (k : Fin 32)
    (pass : PassNo) (v : State) : Prop :=
  ∀ good : Option ItemEntry,
    (∀ it, good = some it ↔ ∃ e : MenuEntry, s.active.menu[p.menu.toNat]? = some e ∧
      k.val < e.countLess1.toNat + 1 ∧ s.active.item[e.first.toNat + k.val]? = some it ∧ it.enabled = true) →
    let r : ChannelReport := .menu
      { pass := pass, menu := p.menu, item := BitVec.ofFin k, code := good.map (·.code), source := .popup }
    (s.queues[n].length < 4 →
      let t := s.withQueue n (s.queues[n] ++ [r])
      (good = none → (t.withChan n (c.restored p)).Reconciled n p.slot v) ∧
      (∀ it, good = some it → it.action = 0 ∨ 5 ≤ it.action.toNat →
        (t.withChan n (c.restored p)).Reconciled n p.slot v) ∧
      (∀ it, good = some it → it.action = 1 → v = t.withChan n { c.emptied with state := (byTip c.tip).entered }) ∧
      (∀ it, good = some it → it.action = 2 →
        (t.withChan n
          { c.restored p with
            filterSet := it.arg.setWidth 2,
            table := recheckTable s.active (it.arg.setWidth 2) c.table }).Reconciled n p.slot v) ∧
      (∀ it, good = some it → it.action = 3 →
        State.Reconciled
          { t.withChan n (c.restored p) with flags := s.flags.set it.arg.toFin (!s.flags[it.arg.toFin]) }
          n p.slot v) ∧
      (∀ it, good = some it → it.action = 4 →
        v = t.withChan n
          { c.emptied with
            state := .track
              { pos := p.anchor, arms := ⟨.none, .none, .none, .none⟩, miss := 0,
                view := s.active.profile[n].view.setWidth 12, update := none } })) ∧
    (4 ≤ s.queues[n].length →
      let waiting (succ : Successor) : PenChannel := { c.emptied with state := .wait r succ }
      (good = none → v = s.withChan n (waiting (byTip c.tip))) ∧
      (∀ it, good = some it → it.action = 0 ∨ it.action = 1 ∨ 5 ≤ it.action.toNat →
        v = s.withChan n (waiting (byTip c.tip))) ∧
      (∀ it, good = some it → it.action = 2 →
        v = s.withChan n { waiting (byTip c.tip) with filterSet := it.arg.setWidth 2 }) ∧
      (∀ it, good = some it → it.action = 3 →
        v = { s.withChan n (waiting (byTip c.tip)) with
              flags := s.flags.set it.arg.toFin (!s.flags[it.arg.toFin]) }) ∧
      (∀ it, good = some it → it.action = 4 →
        v = s.withChan n (waiting (.track p.anchor (s.active.profile[n].view.setWidth 12)))))

/-- No channel but `n` is in a state whose pass-end work can write a live flag. -/
def Sys2Proof.Machine.State.OthersKeepFlags (s : State) (n : HeadNo) : Prop :=
  ∀ m : HeadNo, m ≠ n → s.chans[m].state ≠ .gather ∧ ∀ p, s.chans[m].state ≠ .popup p

/-- What a pass-end notice does in GATHER and in POPUP: an empty table or tally counts nothing; below G or M the count
rises; at G or more the winner, be it alone or over other candidates, is reported with the ending pass: a PICK with
successor TRACK for a track-on-pick class, else HELD; a MENU with successor HELD and its action taken; at M or more the
pop-up choice of the item with the highest counter is made. -/
def Obligations.PassEndCountsAGatherAndAPopup : Prop :=
  (∀ (s : State) (a : FileAddr) (n : HeadNo), s.InputFree → s.passState = .opened → s.pendingSwitch = none →
    s.chans[n].state = .gather → s.chans[n].tip = .down →
    ∃ t, exec (.passEnd a) s = .next t ∧
      (s.chans[n].Empty → t.chans[n] = s.chans[n] ∧ t.queues[n] = s.queues[n]) ∧
      (¬ s.chans[n].Empty → s.chans[n].gather + 1 < s.active.profile[n].g.toNat →
        t.chans[n] = { s.chans[n] with gather := s.chans[n].gather + 1 } ∧ t.queues[n] = s.queues[n]) ∧
      (∀ (i : Fin 4) (w : Candidate) (close : Bool), s.active.profile[n].g.toNat ≤ s.chans[n].gather + 1 →
        s.Wins s.chans[n] i w close →
        (∀ path, w.ident = .pick path →
          let cls := s.active.classOf (w.sample.getD [])
          let u := s.picks n s.chans[n] s.passCount w path close
            (if cls.track = true then .track w.pos ((w.sample.getD []).headD 0) else .held)
          t.chans[n] = u.chans[n] ∧ t.queues[n] = u.queues[n]) ∧
        (∀ m k, w.ident = .menu m k →
          ∃ v, s.ChoosesFixed n s.chans[n] s.passCount w m k close .held v ∧
            t.chans[n] = v.chans[n] ∧ t.queues[n] = v.queues[n] ∧ (s.OthersKeepFlags n → t.flags = v.flags)))) ∧
  (∀ (s : State) (a : FileAddr) (n : HeadNo) (p : Popup), s.InputFree → s.passState = .opened →
    s.pendingSwitch = none → s.chans[n].state = .popup p →
    ∃ t, exec (.passEnd a) s = .next t ∧
      ((∀ k : Fin 32, p.tally[k] = 0) → t.chans[n] = s.chans[n] ∧ t.queues[n] = s.queues[n]) ∧
      ((∃ k : Fin 32, 0 < p.tally[k]) → p.count + 1 < s.active.profile[n].m.toNat →
        t.chans[n] = { s.chans[n] with state := .popup { p with count := p.count + 1 } } ∧
        t.queues[n] = s.queues[n]) ∧
      (∀ k : Fin 32, p.Chooses k → s.active.profile[n].m.toNat ≤ p.count + 1 →
        ∃ v, s.ChoosesPopup n s.chans[n] p k s.passCount v ∧
          t.chans[n] = v.chans[n] ∧ t.queues[n] = v.queues[n] ∧ (s.OthersKeepFlags n → t.flags = v.flags)))

/-- A place freed in a channel's queue takes the held report of WAIT, and the channel enters its recorded successor
reconciled with the tip (HELD and TRACK need the tip down); in TRACK, and in POPUP over a saved TRACK, it takes the
pending update where there is one. All of it goes on while the input is held. -/
def Obligations.FreedPlaceTakesWhatTheChannelKept : Prop :=
  (∀ (s : State) (n : HeadNo) (i : Fin 8) (r held : ChannelReport) (rest : List ChannelReport) (succ : Successor),
    s.InputOk → s.Selects i → s.active.ring[i].toNat = n.val → s.queues[n] = r :: rest →
    s.chans[n].state = .wait held succ →
    ∀ st : ChanState,
      (succ = .held → s.chans[n].tip = .down → st = .held) →
      (∀ pos view, succ = .track pos view → s.chans[n].tip = .down →
        st = .track { pos := pos, arms := ⟨.none, .none, .none, .none⟩, miss := 0, view := view, update := none }) →
      (succ = .idle ∨ s.chans[n].tip = .up → st = .idle) →
      exec .selection s = .next
        (((s.sends i (.chan n r)).withQueue n (rest ++ [held])).withChan n { s.chans[n] with state := st })) ∧
  (∀ (s : State) (n : HeadNo) (i : Fin 8) (r : ChannelReport) (rest : List ChannelReport) (t : Tracking),
    s.InputOk → s.Selects i → s.active.ring[i].toNat = n.val → s.queues[n] = r :: rest →
    s.chans[n].state = .track t →
    (∀ x, t.update = some x → exec .selection s = .next
      (((s.sends i (.chan n r)).withQueue n (rest ++ [.track x])).withChan n
        { s.chans[n] with state := .track { t with update := none } })) ∧
    (t.update = none → exec .selection s = .next ((s.sends i (.chan n r)).withQueue n rest))) ∧
  (∀ (s : State) (n : HeadNo) (i : Fin 8) (r : ChannelReport) (rest : List ChannelReport) (p : Popup),
    s.InputOk → s.Selects i → s.active.ring[i].toNat = n.val → s.queues[n] = r :: rest →
    s.chans[n].state = .popup p →
    (∀ t x, p.slot.state = .track t → t.update = some x → exec .selection s = .next
      (((s.sends i (.chan n r)).withQueue n (rest ++ [.track x])).withChan n
        { s.chans[n] with
          state := .popup { p with slot := { p.slot with state := .track { t with update := none } } } })) ∧
    ((∀ t, p.slot.state = .track t → t.update = none) →
      exec .selection s = .next ((s.sends i (.chan n r)).withQueue n rest)))

/-- Which paths pass a filter set: the family test on level 2 and the level test on level F; and the class of a path:
the CLASS entry of its family, or priority 0 and no flags for an "other" path; and what a re-check against a set leaves
of a table: a PICK entry whose sample path the set refuses becomes invalid, every other entry stays. -/
def Obligations.FilterSetJudgesAPath : Prop :=
  (∀ (b : Bank) (set : BitVec 2) (path : Path), path ≠ [] →
    (b.passes set path = true ↔
      (∀ v, path[1]? = some v → v.toNat < 64 → b.filter[set.toFin].mask.getLsbD v.toNat = true) ∧
      ((path[1]? = none ∨ ∃ v, path[1]? = some v ∧ 64 ≤ v.toNat) → b.filter[set.toFin].other = true) ∧
      (path.length < b.filter[set.toFin].level.toNat → b.filter[set.toFin].refuseShallow = false) ∧
      (∀ v, b.filter[set.toFin].level.toNat ≤ path.length →
        path[b.filter[set.toFin].level.toNat - 1]? = some v →
        v.toNat < b.filter[set.toFin].limit.toNat ∧
        ∀ w, b.permit[set.toNat * 256 + v.toNat / 16]? = some w → w.getLsbD (v.toNat % 16) = false))) ∧
  (∀ (b : Bank) (path : Path),
    (∀ (v : NameVal) (k : Fin 64), path[1]? = some v → v.toNat = k.val → b.classOf path = b.classes[k]) ∧
    ((path[1]? = none ∨ ∃ v, path[1]? = some v ∧ 64 ≤ v.toNat) →
      b.classOf path = { highlight := false, track := false, priority := 0 })) ∧
  (∀ (b : Bank) (set : BitVec 2) (table : Vector (Option Candidate) 4) (i : Fin 4),
    (table[i] = none → (recheckTable b set table)[i] = none) ∧
    (∀ e m k, table[i] = some e → e.ident = .menu m k → (recheckTable b set table)[i] = some e) ∧
    (∀ e path sample, table[i] = some e → e.ident = .pick path → e.sample = some sample →
      (recheckTable b set table)[i] = if b.passes set sample = true then some e else none))

/-! ## Pop-up menus -/

/-- An anchor clamped against the extent of a menu (R110): its x to at most 2047 − w, its y to at least −2048 + h, each
coordinate then clamped to the screen. -/
def Sys2Proof.Machine.anchorWithin (e : MenuEntry) (p : Point) : Point :=
  let right : Int := 2047 - (e.w.toNat : Int)
  let low : Int := -2048 + (e.h.toNat : Int)
  ⟨clampCoord (if right < p.x.toInt then right else p.x.toInt), clampCoord (if p.y.toInt < low then low else p.y.toInt)⟩

/-- BUTTON-PRESS: the level first; in IDLE, GATHER, HELD or TRACK with the head UP and a pop-up menu in the profile the
pop-up opens over the saved activity, its anchor clamped; elsewhere the level only. That a press of a button already
held makes no event is the model's choice (log entry 5), and so is that the channel's own gather count and crowded flag
stay as they stood while the save slot takes a copy (log entry 15). -/
def Obligations.ButtonPressOpensThePopup : Prop :=
  ∀ (s : State) (n : HeadNo),
    (s.chans[n].button = .held → exec (.buttonPress n) s = .next s) ∧
    (s.chans[n].button = .released →
      (s.ports[n].state = .down ∨ s.active.profile[n].popup = 63 ∨ s.chans[n].state = .off ∨
          (∃ r q, s.chans[n].state = .wait r q) →
        exec (.buttonPress n) s = .next (s.withChan n { s.chans[n] with button := .held })) ∧
      (∀ (e : MenuEntry) (saved : Saved) (from_ : Point), s.ports[n].state = .up → s.active.profile[n].popup ≠ 63 →
        s.active.menu[s.active.profile[n].popup.toNat]? = some e →
        ((s.chans[n].state = .idle ∧ saved = .idle ∧ from_ = s.chans[n].lastStrike.getD ⟨0, 0⟩) ∨
         (s.chans[n].state = .gather ∧ saved = .gather ∧ from_ = s.chans[n].lastStrike.getD ⟨0, 0⟩) ∨
         (s.chans[n].state = .held ∧ saved = .held ∧ from_ = s.chans[n].lastStrike.getD ⟨0, 0⟩) ∨
         (∃ t, s.chans[n].state = .track t ∧
           saved = .track { t with arms := ⟨.none, .none, .none, .none⟩ } ∧ from_ = t.pos)) →
        exec (.buttonPress n) s = .next (s.withChan n
          { s.chans[n] with
            button := .held,
            state := .popup
              { menu := s.active.profile[n].popup,
                anchor := anchorWithin e from_,
                tally := .replicate 32 0, count := 0,
                slot := { state := saved, gather := s.chans[n].gather, crowded := s.chans[n].crowded,
                          tipAtOpening := s.chans[n].tip, note := false } } })))

/-- What is left in hand of record `r` once channel `n` has left POPUP: the deliveries of POPUP regions to head `n` have
ended (R113). -/
def Sys2Proof.Machine.handWithoutPopup (n : HeadNo) (r : Record) (w : Vector (List Prepared) 4) : Option InHand :=
  let left := w.set n (w[n].filter fun x => match x.snap with | .menu _ .popup _ => false | _ => true)
  if ∀ m : HeadNo, left[m] = [] then none else some (.deliver r left)

/-- BUTTON-RELEASE outside POPUP or with the head DOWN changes the level only; in POPUP with an empty tally it
cancels: the saved activity resumes, with the tip events replayed that bring it to the present level, and the waiting
deliveries of the pop-up region end. That a release of a button already released makes no event is the model's choice
(log entry 5). -/
def Obligations.ButtonReleaseCancelsAnEmptyPopup : Prop :=
  (∀ (s : State) (n : HeadNo), s.InputOk →
    (s.chans[n].button = .released → exec (.buttonRelease n) s = .next s) ∧
    (s.chans[n].button = .held → (s.ports[n].state = .down ∨ ∀ p, s.chans[n].state ≠ .popup p) →
      exec (.buttonRelease n) s = .next (s.withChan n { s.chans[n] with button := .released }))) ∧
  (∀ (s : State) (n : HeadNo) (p : Popup), s.NoDelivery → s.chans[n].button = .held → s.ports[n].state = .up →
    s.chans[n].state = .popup p → (∀ k : Fin 32, p.tally[k] = 0) →
    ∃ v, exec (.buttonRelease n) s = .next v ∧
      (s.withChan n { s.chans[n].restored p with button := .released }).Reconciled n p.slot v ∧
      (s.offered = [] → ∀ r w, exec (.buttonRelease n) { s with inHand := some (.deliver r w) } =
        .next { v with inHand := handWithoutPopup n r w }))

/-- BUTTON-RELEASE in POPUP with a tally: the item of the highest counter, the lowest of equals, is chosen and a MENU
report offered; with room in the queue the action of a good choice follows, the tip events replayed where the saved
activity resumes; without room the channel waits with the table and save slot discarded. The waiting deliveries of the
pop-up region end. -/
def Obligations.ButtonReleaseMakesTheChoice : Prop :=
  ∀ (s : State) (n : HeadNo) (p : Popup) (k : Fin 32), s.NoDelivery → s.chans[n].button = .held →
    s.ports[n].state = .up → s.chans[n].state = .popup p → p.Chooses k →
    ∃ v, exec (.buttonRelease n) s = .next v ∧
      s.ChoosesPopup n { s.chans[n] with button := .released } p k s.passCount v ∧
      (s.offered = [] → ∀ r w, exec (.buttonRelease n) { s with inHand := some (.deliver r w) } =
        .next { v with inHand := handWithoutPopup n r w })

/-! ## Tracking -/

/-- The pass-end update of a track: the step on each axis, the clamp, the TRACK report of a moved cross, the miss
count, and the loss at K misses. -/
def Obligations.PassEndUpdatesTheTrack : Prop :=
  ∀ (s : State) (a : FileAddr) (n : HeadNo) (t : Tracking), s.InputFree → s.passState = .opened →
    s.pendingSwitch = none → s.chans[n].state = .track t →
    let step (plus minus : ArmLevel) : Int :=
      if plus = .outer ∧ minus = .none then (s.active.profile[n].a.toNat / 2 : Nat)
      else if plus = .inner ∧ minus = .none then (s.active.profile[n].a.toNat / 4 : Nat)
      else if plus = .none ∧ minus = .outer then -((s.active.profile[n].a.toNat / 2 : Nat) : Int)
      else if plus = .none ∧ minus = .inner then -((s.active.profile[n].a.toNat / 4 : Nat) : Int)
      else 0
    let pos : Point :=
      ⟨clampCoord (t.pos.x.toInt + step t.arms.e t.arms.w), clampCoord (t.pos.y.toInt + step t.arms.n t.arms.s)⟩
    let beyond (x : Option Int) : Bool := match x with | some e => decide (999 < e.natAbs / 96) | none => false
    let r : TrackReport :=
      { pass := s.passCount, pos := pos, x := (readoutEighths s.active t.view pos).1,
        y := (readoutEighths s.active t.view pos).2, xOverflow := beyond (readoutEighths s.active t.view pos).1,
        yOverflow := beyond (readoutEighths s.active t.view pos).2 }
    ∃ u, exec (.passEnd a) s = .next u ∧
      (t.arms ≠ ⟨.none, .none, .none, .none⟩ →
        ∃ upd, u.chans[n] = { s.chans[n] with
            state := .track { t with pos := pos, arms := ⟨.none, .none, .none, .none⟩, miss := 0, update := upd } } ∧
          (pos = t.pos → u.queues[n] = s.queues[n] ∧ upd = t.update) ∧
          (pos ≠ t.pos → s.queues[n].length < 4 → (∀ x ∈ s.queues[n], x.isTrack = false) →
            u.queues[n] = s.queues[n] ++ [.track r] ∧ upd = t.update) ∧
          (pos ≠ t.pos → 4 ≤ s.queues[n].length → (∀ x ∈ s.queues[n], x.isTrack = false) →
            u.queues[n] = s.queues[n] ∧ upd = some r) ∧
          (∀ old pre post, pos ≠ t.pos → s.queues[n] = pre ++ .track old :: post →
            (∀ x ∈ pre, x.isTrack = false) → u.queues[n] = pre ++ .track r :: post ∧ upd = t.update)) ∧
      (t.arms = ⟨.none, .none, .none, .none⟩ → t.miss + 1 < s.active.profile[n].k.toNat →
        u.chans[n] = { s.chans[n] with state := .track { t with miss := t.miss + 1 } } ∧
        u.queues[n] = s.queues[n]) ∧
      (t.arms = ⟨.none, .none, .none, .none⟩ → s.active.profile[n].k.toNat ≤ t.miss + 1 →
        let v := s.offers n s.chans[n] (.trackLost t.pos) (byTip s.chans[n].tip)
        u.chans[n] = v.chans[n] ∧ u.queues[n] = v.queues[n])

/-! ## The tables and the banks -/

/-- WRITE-TABLE: refused for the first test that applies, else the entries of the range take their images in the
standby bank and nothing else changes. -/
def Obligations.WriteTableWritesTheStandby : Prop :=
  (∀ (h : DirHeader) (bank : BankId) (table : BitVec 4) (first : Word) (count : BitVec 5) (images : List Word)
      (s : State), s.Takes h → imagesWellFormed table count images = true →
    exec (.writeTable h bank table first count images) s = .next
      (match TableId.ofCode table with
       | none => s.refuses h 1 .badTable
       | some t =>
         if bank = s.selector then s.refuses h 1 .activeBank
         else if s.standby = .copying then s.refuses h 1 .busy
         else if count.toNat = 0 ∨ 16 < count.toNat ∨ t.size < first.toNat + count.toNat then
           s.refuses h 1 .badIndex
         else (s.setStandbyBank (s.standbyBank.writeAll t first.toNat count.toNat images)).did h 1)) ∧
  (∀ (b : Bank) (t u : TableId) (first n i : Nat) (ws : List Word), first + n ≤ t.size →
    (b.writeAll t first n ws).image u i =
      if u = t ∧ first ≤ i ∧ i < first + n then
        (b.write t i ((ws.drop ((i - first) * t.words)).take t.words)).image t i
      else b.image u i)

/-- READ-TABLE: refused for the first test that applies, else the images of the range in the bank named, with its
standing and the standby state. -/
def Obligations.ReadTableReportsTheImages : Prop :=
  ∀ (h : DirHeader) (bank : BankId) (table : BitVec 4) (first : Word) (count : BitVec 5) (s : State),
    s.TakesReplying →
    exec (.readTable h bank table first count) s = .next
      (match TableId.ofCode table with
       | none => s.replying h 2 (.refused .badTable) .none
       | some t =>
         if bank ≠ s.selector ∧ s.standby = .copying then s.replying h 2 (.refused .busy) .none
         else if count.toNat = 0 ∨ 16 < count.toNat ∨ t.size < first.toNat + count.toNat then
           s.replying h 2 (.refused .badIndex) .none
         else s.replying h 2 .done
           (.table bank (decide (bank = s.selector)) s.standby
             ((List.range count.toNat).flatMap fun j =>
               (match bank with | .a => s.bankA | .b => s.bankB).image t (first.toNat + j))))

/-- COPY-BANK begins a copy, each COPY_MOVE moves one table in table order, and the eleventh completes it: the standby
equals the active bank and is READY; a move without a copy in flight changes nothing (log entry 5). CLEAR-BANK gives
the standby the defaults, which pass validation, and makes it READY. -/
def Obligations.CopyAndClearMakeTheStandbyWhole : Prop :=
  ((∀ (h : DirHeader) (s : State), s.Takes h → exec (.copyBank h) s = .next
    (if s.standby = .copying then s.refuses h 3 .busy
     else { s with standby := .copying, copyPos := some .headmap }.did h 3)) ∧
  (∀ s : State, s.copyPos = none → exec .copyMove s = .next s) ∧
  (∀ (s : State) (t : TableId), s.copyPos = some t → exec .copyMove s = .next
    { s.setStandbyBank (s.standbyBank.copyTable s.active t) with
      copyPos := if t = .global then none else TableId.ofCode (BitVec.ofNat 4 (t.code + 1)),
      standby := if t = .global then .ready else s.standby }) ∧
  (∀ s : State, s.copyPos = some .headmap → s.standby = .copying →
    execAll (List.replicate 11 .copyMove) s = .next
      { s.setStandbyBank s.active with copyPos := none, standby := .ready })) ∧
  ((∀ (h : DirHeader) (s : State), s.Takes h → exec (.clearBank h) s = .next
    (if s.standby = .copying then s.refuses h 4 .busy
     else { s.setStandbyBank Bank.defaults with standby := .ready }.did h 4)) ∧
  Bank.defaults.validate = none)

/-- SWITCH-BANK becomes the pending switch with its reply space reserved and makes no reply yet, or is refused at once
with SWITCH-PENDING (R170); CANCEL-SWITCH withdraws it and frees the reservation (R171). -/
def Obligations.SwitchIsRequestedOrWithdrawn : Prop :=
  (∀ (h : DirHeader) (s : State), s.TakesReplying → exec (.switchBank h) s = .next
    (if s.pendingSwitch = none then { s with pendingSwitch := some h.tag, reserved := true }
     else s.replying h 5 (.refused .switchPending) .none)) ∧
  (∀ (h : DirHeader) (s : State), s.Takes h → exec (.cancelSwitch h) s = .next
    (if s.pendingSwitch = none then s.refuses h 6 .notPending
     else { s with pendingSwitch := none, reserved := false }.did h 6)) ∧
  (∀ (h : DirHeader) (s : State), s.InputFree → h.want = true → ¬ s.HasReplySpace →
    exec (.cancelSwitch h) s = .next { s with inHand := some (.directive h .cancelSwitch) })

/-- A pending switch at a pass-end notice, after the channels' work: kept while COPYING, refused when INCOMPLETE or
failing validation, else made in its steps with its reply in the reserved space: the banks change places; each UP head's
trail is trimmed to the new lag; candidates, of a gather or frozen under a pop-up, are re-checked; a pop-up whose menu
the new profile still names stays open, its tally and count cleared and its anchor clamped; any other is cancelled as a
button release with an empty tally would, the new bank active; the flags are loaded afresh. -/
def Obligations.PassEndAttemptsTheSwitch : Prop :=
  ∀ (s : State) (a : FileAddr) (tag : Tag), s.InputFree → s.passState = .opened → s.pendingSwitch = some tag →
    ∃ u, exec (.passEnd a) { s with pendingSwitch := none } = .next u ∧
      (s.standby = .copying → exec (.passEnd a) s = .next { u with pendingSwitch := some tag }) ∧
      (s.standby = .incomplete → exec (.passEnd a) s = .next
        { u with
          reserved := false,
          replies := u.replies ++ [⟨tag, 5, .refused .standbyIncomplete, .switchIncomplete s.passCount⟩] }) ∧
      (∀ f, s.standby = .ready → s.standbyBank.validate = some f → exec (.passEnd a) s = .next
        { u with
          reserved := false,
          replies := u.replies ++ [⟨tag, 5, .refused .badTable, .switchFailed s.passCount f⟩] }) ∧
      (s.standby = .ready → s.standbyBank.validate = none →
        ∃ t, exec (.passEnd a) s = .next t ∧ t.active = s.standbyBank ∧ t.standbyBank = s.active ∧
          (∀ n : HeadNo, t.ports[n] =
            if u.ports[n].state = .up then
              { u.ports[n] with trail := trimTrail s.standbyBank.profile[n].l.toNat u.ports[n].trail }
            else u.ports[n]) ∧
          (∀ (n : HeadNo) (drawn sent : List TrailEntry), u.ports[n].trail = drawn ++ sent →
            (∀ e ∈ drawn, e.state = .drawn) → (∀ e ∈ sent, e.state = .sent) →
            trimTrail s.standbyBank.profile[n].l.toNat u.ports[n].trail =
              drawn.drop (drawn.length - s.standbyBank.profile[n].l.toNat) ++ sent) ∧
          (∀ n : HeadNo, (∀ p, u.chans[n].state ≠ .popup p) →
            t.queues[n] = u.queues[n] ∧
            t.chans[n] =
              if u.chans[n].state = .gather then
                { u.chans[n] with
                  table := recheckTable s.standbyBank u.chans[n].filterSet u.chans[n].table }
              else u.chans[n]) ∧
          (∀ (n : HeadNo) (p : Popup), u.chans[n].state = .popup p →
            let c : PenChannel := { u.chans[n] with
              table :=
                if p.slot.state = .gather then recheckTable s.standbyBank u.chans[n].filterSet u.chans[n].table
                else u.chans[n].table }
            (∀ e : MenuEntry, s.standbyBank.profile[n].popup = p.menu → p.menu ≠ 63 →
              s.standbyBank.menu[p.menu.toNat]? = some e →
              t.queues[n] = u.queues[n] ∧ t.chans[n] =
                { c with
                  state := .popup
                    { p with
                      tally := .replicate 32 0, count := 0, anchor := anchorWithin e p.anchor } }) ∧
            (s.standbyBank.profile[n].popup ≠ p.menu ∨ p.menu = 63 →
              let b : State :=
                { u with selector := if s.selector = .a then .b else .a, standby := .ready, ports := t.ports }
              ∃ v, (b.withChan n (c.restored p)).Reconciled n p.slot v ∧
                t.chans[n] = v.chans[n] ∧ t.queues[n] = v.queues[n])) ∧
          t = { u with
                selector := if s.selector = .a then .b else .a, standby := .ready, ports := t.ports,
                chans := t.chans, queues := t.queues, flags := s.standbyBank.pattern.map (·.active),
                reserved := false,
                replies := u.replies ++
                  [⟨tag, 5, .done, .switchDone s.passCount (if s.selector = .a then .b else .a)⟩] })

/-- Entry `i` of a table fails its table's test (R173). CLASS, PERMIT and SCALE have none; RING's absences are apart. -/
def Sys2Proof.Machine.Bank.Fails (b : Bank) : TableId → Nat → Prop
  | .headmap, i => ∃ e, b.headmap[i]? = some e ∧ ∃ w, (w = e.w0 ∨ w = e.w1) ∧ w.enable = true ∧
      w.limit.toNat < w.base.toNat
  | .profile, i => ∃ e, b.profile[i]? = some e ∧
      (e.g = 0 ∨ e.k = 0 ∨ e.m = 0 ∨ ¬ (1 ≤ e.d.toNat ∧ e.d.toNat ≤ 6) ∨ e.a.toNat < 8 ∨
        (e.popup ≠ 63 ∧ ¬ ∃ m, b.menu[e.popup.toNat]? = some m ∧ m.kind = 2 ∧ m.owner.toNat = i))
  | .filter, i => ∃ e, b.filter[i]? = some e ∧
      (¬ (1 ≤ e.level.toNat ∧ e.level.toNat ≤ 6) ∨ 4096 < e.limit.toNat)
  | .menu, i => ∃ e, b.menu[i]? = some e ∧
      (((e.kind = 1 ∨ e.kind = 2) ∧ 256 < e.first.toNat + (e.countLess1.toNat + 1)) ∨
        (e.kind = 2 ∧ (3 < e.owner.toNat ∨ e.w = 0 ∨ e.h = 0)))
  | .item, i => ∃ e, b.item[i]? = some e ∧ ∃ m : Fin 32,
      b.menu[m].first.toNat ≤ i ∧ i < b.menu[m].first.toNat + (b.menu[m].countLess1.toNat + 1) ∧
      (((b.menu[m].kind = 1 ∨ b.menu[m].kind = 2) ∧ e.action = 2 ∧ 3 < e.arg.toNat) ∨
        (b.menu[m].kind = 1 ∧ e.action = 4))
  | .pattern, i => ∃ e, b.pattern[i]? = some e ∧
      e.kind ≠ 0 ∧ (¬ (1 ≤ e.depth.toNat ∧ e.depth.toNat ≤ 6) ∨ e.mask = 0)
  | .ring, i => ∃ c, b.ring[i]? = some c ∧ 5 < c.toNat
  | .global, i => i = 0 ∧ 3 < b.global.defaultHead.toNat ∧ b.global.defaultHead ≠ 7
  | .classes, _ | .permit, _ | .scale, _ => False

/-- A source's place in the order of R173: the four channels, REPLY, STATUS. -/
def Sys2Proof.Machine.Source.place : Source → Nat
  | .chan n => n.val
  | .reply => 4
  | .status => 5

/-- Some slot of the ring names the source. -/
def Sys2Proof.Machine.Bank.HasSource (b : Bank) (x : Source) : Prop := ∃ k : Fin 8, b.ring[k].toNat = x.place

/-- A bank passes validation exactly when no entry fails its table's test and every source has a slot of the ring. A
failing validation names the first failing entry in table order, lowest index first; or, where no entry up to RING
fails, RING with index 8 and the first absent source. -/
def Obligations.ValidationPassesSoundBanks : Prop :=
  ∀ b : Bank,
    (b.validate = none ↔ (∀ t i, ¬ b.Fails t i) ∧ ∀ x, b.HasSource x) ∧
    (∀ f, b.validate = some f →
      (f.source = none ∧ b.Fails f.table f.index ∧
        (∀ t i, b.Fails t i → f.table.code < t.code ∨ (t = f.table ∧ f.index ≤ i)) ∧
        (f.table = .global → ∀ x, b.HasSource x)) ∨
      (∃ x, f = ⟨.ring, 8, some x⟩ ∧ ¬ b.HasSource x ∧ (∀ y, y.place < x.place → b.HasSource y) ∧
        ∀ t i, b.Fails t i → t = .global))

/-! ## The directives that act on channels, heads and flags -/

/-- ENABLE-CHANNEL is refused above 3 and outside OFF; from OFF the channel enters IDLE with its initial filter set.
DISABLE-CHANNEL is refused above 3 and in OFF; else the channel enters OFF, and what it was doing is disposed of. -/
def Obligations.ChannelsAreEnabledAndDisabled : Prop :=
  (∀ (h : DirHeader) (ch : BitVec 8) (s : State), s.Takes h →
    (3 < ch.toNat → exec (.enableChannel h ch) s = .next (s.refuses h 7 .badChannel)) ∧
    (∀ n : HeadNo, ch.toNat = n.val →
      (s.chans[n].state ≠ .off → exec (.enableChannel h ch) s = .next (s.refuses h 7 .badState)) ∧
      (s.chans[n].state = .off → exec (.enableChannel h ch) s = .next
        ((s.withChan n
          { s.chans[n].emptied with
            state := .idle, highlight := none, filterSet := s.active.profile[n].initFilter }).did h 7)))) ∧
  (∀ (h : DirHeader) (ch : BitVec 8) (s : State), s.Takes h →
    (3 < ch.toNat → exec (.disableChannel h ch) s = .next (s.refuses h 8 .badChannel)) ∧
    (∀ n : HeadNo, ch.toNat = n.val →
      let off := s.withChan n { s.chans[n].emptied with state := .off, highlight := none }
      let busy := s.chans[n].state = .gather ∨ (∃ t, s.chans[n].state = .track t) ∨ ∃ p, s.chans[n].state = .popup p
      (s.chans[n].state = .off → exec (.disableChannel h ch) s = .next (s.refuses h 8 .badState)) ∧
      (s.chans[n].state = .idle ∨ s.chans[n].state = .held → exec (.disableChannel h ch) s = .next
        (off.concluded h 8 .done (.disposition .none))) ∧
      (busy → s.queues[n].length < 4 → exec (.disableChannel h ch) s = .next
        ((off.withQueue n (s.queues[n] ++ [.aborted .disabled])).concluded h 8 .done
          (.disposition .abortedQueued))) ∧
      (busy → ¬ s.queues[n].length < 4 → exec (.disableChannel h ch) s = .next
        (off.concluded h 8 .done (.disposition .abortedLost))) ∧
      ((∃ r q, s.chans[n].state = .wait r q) → exec (.disableChannel h ch) s = .next
        (off.concluded h 8 .done (.disposition .heldDiscarded)))))

/-- ABORT-ATTEMPT: refused above 3 and in OFF, IDLE and HELD; in GATHER, TRACK and POPUP the activity is cleared and
ABORTED (HOST) offered; in WAIT it replaces the held report. -/
def Obligations.AbortAttemptEndsTheActivity : Prop :=
  ∀ (h : DirHeader) (ch : BitVec 8) (s : State), s.Takes h →
    (3 < ch.toNat → exec (.abortAttempt h ch) s = .next (s.refuses h 9 .badChannel)) ∧
    (∀ n : HeadNo, ch.toNat = n.val →
      let succ := byTip s.chans[n].tip
      (s.chans[n].state = .off ∨ s.chans[n].state = .idle ∨ s.chans[n].state = .held →
        exec (.abortAttempt h ch) s = .next (s.refuses h 9 .badState)) ∧
      ((s.chans[n].state = .gather ∨ ∃ p, s.chans[n].state = .popup p) →
        exec (.abortAttempt h ch) s = .next ((s.offers n s.chans[n].emptied (.aborted .host) succ).did h 9)) ∧
      ((∃ t, s.chans[n].state = .track t) →
        exec (.abortAttempt h ch) s = .next ((s.offers n s.chans[n] (.aborted .host) succ).did h 9)) ∧
      ((∃ r q, s.chans[n].state = .wait r q) →
        exec (.abortAttempt h ch) s = .next
          ((s.withChan n { s.chans[n] with state := .wait (.aborted .host) succ }).did h 9)))

/-- FORCE-TRACK: refused above 3, outside IDLE and HELD, and at a DOWN head; else a track begins at the clamped point,
which the reply carries. -/
def Obligations.ForceTrackBeginsATrack : Prop :=
  ∀ (h : DirHeader) (ch : BitVec 8) (x y : Word) (view : NameVal) (s : State), s.Takes h →
    (3 < ch.toNat → exec (.forceTrack h ch x y view) s = .next (s.refuses h 10 .badChannel)) ∧
    (∀ n : HeadNo, ch.toNat = n.val →
      let start : Point := ⟨clampCoord x.toInt, clampCoord y.toInt⟩
      let can := (s.chans[n].state = .idle ∨ s.chans[n].state = .held) ∧ s.ports[n].state = .up
      (¬ can → exec (.forceTrack h ch x y view) s = .next (s.refuses h 10 .badState)) ∧
      (can → exec (.forceTrack h ch x y view) s = .next
        ((s.withChan n
          { s.chans[n] with
            state := .track
              { pos := start, arms := ⟨.none, .none, .none, .none⟩, miss := 0, view := view,
                update := none } }).concluded h 10 .done (.start start))))

/-- CLEAR-HIGHLIGHT empties the slot in every channel state; SET-PATTERN-FLAG sets or clears one live flag; each is
refused above its range. -/
def Obligations.HighlightAndPatternFlagDirectives : Prop :=
  (∀ (h : DirHeader) (ch : BitVec 8) (s : State), s.Takes h →
    (3 < ch.toNat → exec (.clearHighlight h ch) s = .next (s.refuses h 11 .badChannel)) ∧
    (∀ n : HeadNo, ch.toNat = n.val →
      exec (.clearHighlight h ch) s = .next ((s.withChan n { s.chans[n] with highlight := none }).did h 11))) ∧
  (∀ (h : DirHeader) (on : Bool) (pattern : BitVec 8) (s : State), s.Takes h →
    (15 < pattern.toNat → exec (.setPatternFlag h on pattern) s = .next (s.refuses h 12 .badIndex)) ∧
    (∀ k : Fin 16, pattern.toNat = k.val →
      exec (.setPatternFlag h on pattern) s = .next ({ s with flags := s.flags.set k on }.did h 12)))

/-- READ-STATUS: the reply carries the state named as it stands; FAULTS with the clear option then clears counts and
flags; a number above 3 and an unknown item are refused (that the unknown items come under READ_STATUS_PASS is log entry
11). -/
def Obligations.ReadStatusReportsTheState : Prop :=
  ∀ (h : DirHeader) (s : State), s.TakesReplying →
    exec (.readStatusFaults h) s = .next (s.replying h 14 .done (.faults s.faultPending s.faultCounts)) ∧
    exec (.readStatusFaultsClear h) s = .next
      ({ s with faultPending := .replicate 12 false, faultCounts := .replicate 12 0 }.replying h 14 .done
        (.faults s.faultPending s.faultCounts)) ∧
    exec (.readStatusBanks h) s = .next (s.replying h 14 .done
      (.banks ⟨s.selector, s.standby, s.copyPos, s.pendingSwitch, s.flags⟩)) ∧
    exec (.readStatusPass h 4) s = .next (s.replying h 14 .done (.pass s.passState s.passCount)) ∧
    (∀ item : BitVec 4, item ≠ 4 →
      exec (.readStatusPass h item) s = .next (s.replying h 14 (.refused .badIndex) .none)) ∧
    (∀ k : BitVec 8, 3 < k.toNat →
      exec (.readStatusChannel h k) s = .next (s.replying h 14 (.refused .badChannel) .none) ∧
      exec (.readStatusHead h k) s = .next (s.replying h 14 (.refused .badChannel) .none)) ∧
    (∀ (k : BitVec 8) (n : HeadNo), k.toNat = n.val →
      exec (.readStatusChannel h k) s = .next (s.replying h 14 .done
        (.channel n
          { state := s.chans[n].state.kind, tip := s.chans[n].tip, button := s.chans[n].button,
            lastStrike := s.chans[n].lastStrike, filterSet := s.chans[n].filterSet, gather := s.chans[n].gather,
            crowded := s.chans[n].crowded, tree := s.chans[n].tree, highlight := s.chans[n].highlight,
            table := s.chans[n].table,
            held := match s.chans[n].state with | .wait r succ => some (r.kind, succ) | _ => none,
            popup := match s.chans[n].state with | .popup p => some p | _ => none,
            tracking := match s.chans[n].state with | .track t => some t | _ => none })) ∧
      exec (.readStatusHead h k) s = .next (s.replying h 14 .done
        (.head
          { state := s.ports[n].state, credit := s.ports[n].credit, beam := s.ports[n].beam,
            timerRunning := decide (s.ports[n].timer ≠ .stopped),
            sent := s.ports[n].trail.countP fun e => e.state = .sent,
            drawn := s.ports[n].trail.countP fun e => e.state = .drawn,
            entries := s.ports[n].trail.map fun e => ⟨e.origin, e.kind, e.visible, e.state, e.pos⟩,
            tracker := s.trackers[n] })))

/-! ## The return link -/

/-- A credit grant adds its amount; beyond 15 the credit becomes 15 and CREDIT-OVERRUN is raised; only a selection
lowers the credit, none is made without credit, and power-on reset makes it 0. -/
def Obligations.CreditGrantAddsToTheReturnCredit : Prop :=
  (∀ (s : State) (w : Word),
    exec (.creditGrant w) s = .next
      (if 15 < s.credit + w.toNat % 16 then { s with credit := 15 }.raise .creditOverrun
       else { s with credit := s.credit + w.toNat % 16 })) ∧
  (∀ (c : Instr) (s t : State), s.credit ≤ 15 → exec c s = .next t →
    t.credit ≤ 15 ∧ (c ≠ .selection → (∀ lines, c ≠ .powerOnReset lines) → s.credit ≤ t.credit) ∧
    (c = .selection → s.credit ≤ t.credit + 1 ∧ (t.credit < s.credit → s.link = .free ∧ t.link ≠ .free))) ∧
  (∀ (s : State), s.InputOk → s.credit = 0 → exec .selection s = .next s) ∧
  (∀ (lines : Vector PenLines 4) (s t : State), exec (.powerOnReset lines) s = .next t → t.credit = 0)

/-- A selection sends the oldest report of the first ready source round the ring; without a free link, credit or a
ready source nothing is sent; the end of a transmission frees the link (that one at a FREE link changes nothing is log
entry 5). Selection goes on while the input is held; a REPLY selected while a directive holds it is another
statement's (HeldInputTakesNoRecord). -/
def Obligations.SelectionServesTheRing : Prop :=
  (∀ s : State, exec .transmissionEnd s = .next { s with link := .free }) ∧
  (∀ s : State, s.InputOk →
    ((∀ i, ¬ s.Selects i) → exec .selection s = .next s) ∧
    (∀ i, s.Selects i →
      (∀ (n : HeadNo) r rest, s.active.ring[i].toNat = n.val → s.queues[n] = r :: rest →
        (s.chans[n].state = .off ∨ s.chans[n].state = .idle ∨ s.chans[n].state = .gather ∨
          s.chans[n].state = .held) →
        exec .selection s = .next ((s.sends i (.chan n r)).withQueue n rest)) ∧
      (∀ r rest, s.NoDirective → s.active.ring[i] = 4 → s.replies = r :: rest →
        exec .selection s = .next ({ s with replies := rest }.sends i (.reply r))) ∧
      (s.active.ring[i] = 5 →
        exec .selection s = .next
          ({ s with faultPending := .replicate 12 false }.sends i (.status s.faultPending s.faultCounts)))))

/-! ## Encodings -/

/-- Reading the words written for a well-formed record gives that record back, with the words after it. -/
def Obligations.ReadingUndoesWriting : Prop :=
  ∀ r : Record, r.wellFormed = true →
    ∃ ws, writeRecord r = some ws ∧ ∀ rest, readRecord (ws ++ rest) = some (r, rest)

/-- Images read from a bank and written into another read there the same. -/
def Obligations.ImagesSurviveReadAndWrite : Prop :=
  ∀ (b c : Bank) (t : TableId) (first n : Nat), first + n ≤ t.size →
    (b.writeAll t first n (c.images t first n)).images t first n = c.images t first n

/-! ## What every step keeps -/

/-- Every step keeps the head links' books, the order and the lag of the trails, and the timers. -/
def Obligations.StepsKeepTheHeadPorts : Prop :=
  ∀ s t : State, (∀ n : HeadNo, s.ports[n].Ok s.active n) → step s = .next t → ∀ n : HeadNo, t.ports[n].Ok t.active n

/-- Every step keeps the report queues: four reports, one TRACK report, and what a channel keeps back only beside a
full queue. -/
def Obligations.StepsKeepTheReportQueues : Prop :=
  ∀ s t : State, (∀ n : HeadNo, QueueOk s.queues[n] ∧ KeptBackOk s.chans[n] s.queues[n]) → step s = .next t →
    ∀ n : HeadNo, QueueOk t.queues[n] ∧ KeptBackOk t.chans[n] t.queues[n]

/-- Every step keeps the reply queue with its reservation, the copy position, the counts and the trackers. -/
def Obligations.StepsKeepTheCounts : Prop :=
  ∀ s t : State, s.RepliesOk ∧ s.CopyOk ∧ s.CountsOk ∧ (∀ n : HeadNo, s.trackers[n].Ok) → step s = .next t →
    t.RepliesOk ∧ t.CopyOk ∧ t.CountsOk ∧ ∀ n : HeadNo, t.trackers[n].Ok

/-- Every step leaves the input free, or held for a cause of section 1.5. -/
def Obligations.StepsHoldTheInputForACause : Prop :=
  ∀ s t : State, s.InputOk → step s = .next t → t.InputOk

/-- Every step keeps the candidate tables: no identity twice, and candidates only in a gather. -/
def Obligations.StepsKeepTheCandidateTables : Prop :=
  ∀ s t : State, (∀ n : HeadNo, s.chans[n].TableOk) → step s = .next t → ∀ n : HeadNo, t.chans[n].TableOk

/-- Every step keeps the levels and the channel states in agreement. -/
def Obligations.StepsKeepTheLevels : Prop :=
  ∀ s t : State, (∀ n : HeadNo, s.chans[n].LevelsOk s.ports[n]) → step s = .next t →
    ∀ n : HeadNo, t.chans[n].LevelsOk t.ports[n]

/-- Every step keeps an active bank that passes validation. -/
def Obligations.StepsKeepTheActiveBankSound : Prop :=
  ∀ s t : State, s.active.validate = none → step s = .next t → t.active.validate = none

/-- All that the steps keep holds at power-on reset. -/
def Obligations.PowerOnStateIsSound : Prop :=
  State.reset.Ok
end

