-- ==== Sys2Proof/Laws/State.lean ====
section
/-! SUPPORT. One lemma per field of State per named update: which field the update changes and that it leaves the
others alone. -/

namespace Sys2Proof.Machine

/-! ## raise: one fault notice (R185) -/

@[simp] theorem State.raise_passState (s : State) (k : FaultKind) : (s.raise k).passState = s.passState := rfl
@[simp] theorem State.raise_passCount (s : State) (k : FaultKind) : (s.raise k).passCount = s.passCount := rfl
@[simp] theorem State.raise_inHand (s : State) (k : FaultKind) : (s.raise k).inHand = s.inHand := rfl
@[simp] theorem State.raise_offered (s : State) (k : FaultKind) : (s.raise k).offered = s.offered := rfl
@[simp] theorem State.raise_trackers (s : State) (k : FaultKind) : (s.raise k).trackers = s.trackers := rfl
@[simp] theorem State.raise_flags (s : State) (k : FaultKind) : (s.raise k).flags = s.flags := rfl
@[simp] theorem State.raise_ports (s : State) (k : FaultKind) : (s.raise k).ports = s.ports := rfl
@[simp] theorem State.raise_headLinks (s : State) (k : FaultKind) : (s.raise k).headLinks = s.headLinks := rfl
@[simp] theorem State.raise_chans (s : State) (k : FaultKind) : (s.raise k).chans = s.chans := rfl
@[simp] theorem State.raise_bankA (s : State) (k : FaultKind) : (s.raise k).bankA = s.bankA := rfl
@[simp] theorem State.raise_bankB (s : State) (k : FaultKind) : (s.raise k).bankB = s.bankB := rfl
@[simp] theorem State.raise_selector (s : State) (k : FaultKind) : (s.raise k).selector = s.selector := rfl
@[simp] theorem State.raise_standby (s : State) (k : FaultKind) : (s.raise k).standby = s.standby := rfl
@[simp] theorem State.raise_pendingSwitch (s : State) (k : FaultKind) : (s.raise k).pendingSwitch = s.pendingSwitch := rfl
@[simp] theorem State.raise_copyPos (s : State) (k : FaultKind) : (s.raise k).copyPos = s.copyPos := rfl
@[simp] theorem State.raise_queues (s : State) (k : FaultKind) : (s.raise k).queues = s.queues := rfl
@[simp] theorem State.raise_replies (s : State) (k : FaultKind) : (s.raise k).replies = s.replies := rfl
@[simp] theorem State.raise_reserved (s : State) (k : FaultKind) : (s.raise k).reserved = s.reserved := rfl
@[simp] theorem State.raise_faultCounts (s : State) (k : FaultKind) :
    (s.raise k).faultCounts = s.faultCounts.set k.num (satAdd Config.maxFaultCount s.faultCounts[k.num] 1) := rfl
@[simp] theorem State.raise_faultPending (s : State) (k : FaultKind) :
    (s.raise k).faultPending = if s.active.global.faultMask.getLsbD k.num then s.faultPending.set k.num true else s.faultPending := rfl
@[simp] theorem State.raise_ringPtr (s : State) (k : FaultKind) : (s.raise k).ringPtr = s.ringPtr := rfl
@[simp] theorem State.raise_credit (s : State) (k : FaultKind) : (s.raise k).credit = s.credit := rfl
@[simp] theorem State.raise_link (s : State) (k : FaultKind) : (s.raise k).link = s.link := rfl
@[simp] theorem State.raise_pending (s : State) (k : FaultKind) : (s.raise k).pending = s.pending := rfl
@[simp] theorem State.raise_active (s : State) (k : FaultKind) : (s.raise k).active = s.active := rfl
@[simp] theorem State.raise_standbyBank (s : State) (k : FaultKind) : (s.raise k).standbyBank = s.standbyBank := rfl

/-! ## setPort: one Head Port replaced -/

@[simp] theorem State.setPort_passState (s : State) (n : HeadNo) (p : HeadPort) : (s.setPort n p).passState = s.passState := rfl
@[simp] theorem State.setPort_passCount (s : State) (n : HeadNo) (p : HeadPort) : (s.setPort n p).passCount = s.passCount := rfl
@[simp] theorem State.setPort_inHand (s : State) (n : HeadNo) (p : HeadPort) : (s.setPort n p).inHand = s.inHand := rfl
@[simp] theorem State.setPort_offered (s : State) (n : HeadNo) (p : HeadPort) : (s.setPort n p).offered = s.offered := rfl
@[simp] theorem State.setPort_trackers (s : State) (n : HeadNo) (p : HeadPort) : (s.setPort n p).trackers = s.trackers := rfl
@[simp] theorem State.setPort_flags (s : State) (n : HeadNo) (p : HeadPort) : (s.setPort n p).flags = s.flags := rfl
@[simp] theorem State.setPort_ports (s : State) (n : HeadNo) (p : HeadPort) :
    (s.setPort n p).ports = s.ports.set n p := rfl
@[simp] theorem State.setPort_headLinks (s : State) (n : HeadNo) (p : HeadPort) : (s.setPort n p).headLinks = s.headLinks := rfl
@[simp] theorem State.setPort_chans (s : State) (n : HeadNo) (p : HeadPort) : (s.setPort n p).chans = s.chans := rfl
@[simp] theorem State.setPort_bankA (s : State) (n : HeadNo) (p : HeadPort) : (s.setPort n p).bankA = s.bankA := rfl
@[simp] theorem State.setPort_bankB (s : State) (n : HeadNo) (p : HeadPort) : (s.setPort n p).bankB = s.bankB := rfl
@[simp] theorem State.setPort_selector (s : State) (n : HeadNo) (p : HeadPort) : (s.setPort n p).selector = s.selector := rfl
@[simp] theorem State.setPort_standby (s : State) (n : HeadNo) (p : HeadPort) : (s.setPort n p).standby = s.standby := rfl
@[simp] theorem State.setPort_pendingSwitch (s : State) (n : HeadNo) (p : HeadPort) : (s.setPort n p).pendingSwitch = s.pendingSwitch := rfl
@[simp] theorem State.setPort_copyPos (s : State) (n : HeadNo) (p : HeadPort) : (s.setPort n p).copyPos = s.copyPos := rfl
@[simp] theorem State.setPort_queues (s : State) (n : HeadNo) (p : HeadPort) : (s.setPort n p).queues = s.queues := rfl
@[simp] theorem State.setPort_replies (s : State) (n : HeadNo) (p : HeadPort) : (s.setPort n p).replies = s.replies := rfl
@[simp] theorem State.setPort_reserved (s : State) (n : HeadNo) (p : HeadPort) : (s.setPort n p).reserved = s.reserved := rfl
@[simp] theorem State.setPort_faultCounts (s : State) (n : HeadNo) (p : HeadPort) : (s.setPort n p).faultCounts = s.faultCounts := rfl
@[simp] theorem State.setPort_faultPending (s : State) (n : HeadNo) (p : HeadPort) : (s.setPort n p).faultPending = s.faultPending := rfl
@[simp] theorem State.setPort_ringPtr (s : State) (n : HeadNo) (p : HeadPort) : (s.setPort n p).ringPtr = s.ringPtr := rfl
@[simp] theorem State.setPort_credit (s : State) (n : HeadNo) (p : HeadPort) : (s.setPort n p).credit = s.credit := rfl
@[simp] theorem State.setPort_link (s : State) (n : HeadNo) (p : HeadPort) : (s.setPort n p).link = s.link := rfl
@[simp] theorem State.setPort_pending (s : State) (n : HeadNo) (p : HeadPort) : (s.setPort n p).pending = s.pending := rfl
@[simp] theorem State.setPort_active (s : State) (n : HeadNo) (p : HeadPort) : (s.setPort n p).active = s.active := rfl
@[simp] theorem State.setPort_standbyBank (s : State) (n : HeadNo) (p : HeadPort) : (s.setPort n p).standbyBank = s.standbyBank := rfl

/-! ## putDesk: one channel's desk put back -/

@[simp] theorem State.putDesk_passState (s : State) (n : HeadNo) (d : Desk) : (s.putDesk n d).passState = s.passState := rfl
@[simp] theorem State.putDesk_passCount (s : State) (n : HeadNo) (d : Desk) : (s.putDesk n d).passCount = s.passCount := rfl
@[simp] theorem State.putDesk_offered (s : State) (n : HeadNo) (d : Desk) : (s.putDesk n d).offered = s.offered := rfl
@[simp] theorem State.putDesk_trackers (s : State) (n : HeadNo) (d : Desk) : (s.putDesk n d).trackers = s.trackers := rfl
@[simp] theorem State.putDesk_flags (s : State) (n : HeadNo) (d : Desk) :
    (s.putDesk n d).flags = d.flags := rfl
@[simp] theorem State.putDesk_ports (s : State) (n : HeadNo) (d : Desk) : (s.putDesk n d).ports = s.ports := rfl
@[simp] theorem State.putDesk_headLinks (s : State) (n : HeadNo) (d : Desk) : (s.putDesk n d).headLinks = s.headLinks := rfl
@[simp] theorem State.putDesk_chans (s : State) (n : HeadNo) (d : Desk) :
    (s.putDesk n d).chans = s.chans.set n d.chan := rfl
@[simp] theorem State.putDesk_bankA (s : State) (n : HeadNo) (d : Desk) : (s.putDesk n d).bankA = s.bankA := rfl
@[simp] theorem State.putDesk_bankB (s : State) (n : HeadNo) (d : Desk) : (s.putDesk n d).bankB = s.bankB := rfl
@[simp] theorem State.putDesk_selector (s : State) (n : HeadNo) (d : Desk) : (s.putDesk n d).selector = s.selector := rfl
@[simp] theorem State.putDesk_standby (s : State) (n : HeadNo) (d : Desk) : (s.putDesk n d).standby = s.standby := rfl
@[simp] theorem State.putDesk_pendingSwitch (s : State) (n : HeadNo) (d : Desk) : (s.putDesk n d).pendingSwitch = s.pendingSwitch := rfl
@[simp] theorem State.putDesk_copyPos (s : State) (n : HeadNo) (d : Desk) : (s.putDesk n d).copyPos = s.copyPos := rfl
@[simp] theorem State.putDesk_queues (s : State) (n : HeadNo) (d : Desk) :
    (s.putDesk n d).queues = s.queues.set n d.queue := rfl
@[simp] theorem State.putDesk_replies (s : State) (n : HeadNo) (d : Desk) : (s.putDesk n d).replies = s.replies := rfl
@[simp] theorem State.putDesk_reserved (s : State) (n : HeadNo) (d : Desk) : (s.putDesk n d).reserved = s.reserved := rfl
@[simp] theorem State.putDesk_faultCounts (s : State) (n : HeadNo) (d : Desk) : (s.putDesk n d).faultCounts = s.faultCounts := rfl
@[simp] theorem State.putDesk_faultPending (s : State) (n : HeadNo) (d : Desk) : (s.putDesk n d).faultPending = s.faultPending := rfl
@[simp] theorem State.putDesk_ringPtr (s : State) (n : HeadNo) (d : Desk) : (s.putDesk n d).ringPtr = s.ringPtr := rfl
@[simp] theorem State.putDesk_credit (s : State) (n : HeadNo) (d : Desk) : (s.putDesk n d).credit = s.credit := rfl
@[simp] theorem State.putDesk_link (s : State) (n : HeadNo) (d : Desk) : (s.putDesk n d).link = s.link := rfl
@[simp] theorem State.putDesk_pending (s : State) (n : HeadNo) (d : Desk) : (s.putDesk n d).pending = s.pending := rfl
@[simp] theorem State.putDesk_active (s : State) (n : HeadNo) (d : Desk) : (s.putDesk n d).active = s.active := rfl
@[simp] theorem State.putDesk_standbyBank (s : State) (n : HeadNo) (d : Desk) : (s.putDesk n d).standbyBank = s.standbyBank := rfl

/-! ## addReply: one reply appended (R183) -/

@[simp] theorem State.addReply_passState (s : State) (r : Reply) : (s.addReply r).passState = s.passState := rfl
@[simp] theorem State.addReply_passCount (s : State) (r : Reply) : (s.addReply r).passCount = s.passCount := rfl
@[simp] theorem State.addReply_inHand (s : State) (r : Reply) : (s.addReply r).inHand = s.inHand := rfl
@[simp] theorem State.addReply_offered (s : State) (r : Reply) : (s.addReply r).offered = s.offered := rfl
@[simp] theorem State.addReply_trackers (s : State) (r : Reply) : (s.addReply r).trackers = s.trackers := rfl
@[simp] theorem State.addReply_flags (s : State) (r : Reply) : (s.addReply r).flags = s.flags := rfl
@[simp] theorem State.addReply_ports (s : State) (r : Reply) : (s.addReply r).ports = s.ports := rfl
@[simp] theorem State.addReply_headLinks (s : State) (r : Reply) : (s.addReply r).headLinks = s.headLinks := rfl
@[simp] theorem State.addReply_chans (s : State) (r : Reply) : (s.addReply r).chans = s.chans := rfl
@[simp] theorem State.addReply_bankA (s : State) (r : Reply) : (s.addReply r).bankA = s.bankA := rfl
@[simp] theorem State.addReply_bankB (s : State) (r : Reply) : (s.addReply r).bankB = s.bankB := rfl
@[simp] theorem State.addReply_selector (s : State) (r : Reply) : (s.addReply r).selector = s.selector := rfl
@[simp] theorem State.addReply_standby (s : State) (r : Reply) : (s.addReply r).standby = s.standby := rfl
@[simp] theorem State.addReply_pendingSwitch (s : State) (r : Reply) : (s.addReply r).pendingSwitch = s.pendingSwitch := rfl
@[simp] theorem State.addReply_copyPos (s : State) (r : Reply) : (s.addReply r).copyPos = s.copyPos := rfl
@[simp] theorem State.addReply_queues (s : State) (r : Reply) : (s.addReply r).queues = s.queues := rfl
@[simp] theorem State.addReply_replies (s : State) (r : Reply) :
    (s.addReply r).replies = s.replies ++ [r] := rfl
@[simp] theorem State.addReply_reserved (s : State) (r : Reply) : (s.addReply r).reserved = s.reserved := rfl
@[simp] theorem State.addReply_faultCounts (s : State) (r : Reply) : (s.addReply r).faultCounts = s.faultCounts := rfl
@[simp] theorem State.addReply_faultPending (s : State) (r : Reply) : (s.addReply r).faultPending = s.faultPending := rfl
@[simp] theorem State.addReply_ringPtr (s : State) (r : Reply) : (s.addReply r).ringPtr = s.ringPtr := rfl
@[simp] theorem State.addReply_credit (s : State) (r : Reply) : (s.addReply r).credit = s.credit := rfl
@[simp] theorem State.addReply_link (s : State) (r : Reply) : (s.addReply r).link = s.link := rfl
@[simp] theorem State.addReply_pending (s : State) (r : Reply) : (s.addReply r).pending = s.pending := rfl
@[simp] theorem State.addReply_active (s : State) (r : Reply) : (s.addReply r).active = s.active := rfl
@[simp] theorem State.addReply_standbyBank (s : State) (r : Reply) : (s.addReply r).standbyBank = s.standbyBank := rfl

/-! ## reloadFlags: the live flags reloaded (R149) -/

@[simp] theorem State.reloadFlags_passState (s : State) : (s.reloadFlags).passState = s.passState := rfl
@[simp] theorem State.reloadFlags_passCount (s : State) : (s.reloadFlags).passCount = s.passCount := rfl
@[simp] theorem State.reloadFlags_inHand (s : State) : (s.reloadFlags).inHand = s.inHand := rfl
@[simp] theorem State.reloadFlags_offered (s : State) : (s.reloadFlags).offered = s.offered := rfl
@[simp] theorem State.reloadFlags_trackers (s : State) : (s.reloadFlags).trackers = s.trackers := rfl
@[simp] theorem State.reloadFlags_flags (s : State) :
    (s.reloadFlags).flags = s.active.pattern.map (·.active) := rfl
@[simp] theorem State.reloadFlags_ports (s : State) : (s.reloadFlags).ports = s.ports := rfl
@[simp] theorem State.reloadFlags_headLinks (s : State) : (s.reloadFlags).headLinks = s.headLinks := rfl
@[simp] theorem State.reloadFlags_chans (s : State) : (s.reloadFlags).chans = s.chans := rfl
@[simp] theorem State.reloadFlags_bankA (s : State) : (s.reloadFlags).bankA = s.bankA := rfl
@[simp] theorem State.reloadFlags_bankB (s : State) : (s.reloadFlags).bankB = s.bankB := rfl
@[simp] theorem State.reloadFlags_selector (s : State) : (s.reloadFlags).selector = s.selector := rfl
@[simp] theorem State.reloadFlags_standby (s : State) : (s.reloadFlags).standby = s.standby := rfl
@[simp] theorem State.reloadFlags_pendingSwitch (s : State) : (s.reloadFlags).pendingSwitch = s.pendingSwitch := rfl
@[simp] theorem State.reloadFlags_copyPos (s : State) : (s.reloadFlags).copyPos = s.copyPos := rfl
@[simp] theorem State.reloadFlags_queues (s : State) : (s.reloadFlags).queues = s.queues := rfl
@[simp] theorem State.reloadFlags_replies (s : State) : (s.reloadFlags).replies = s.replies := rfl
@[simp] theorem State.reloadFlags_reserved (s : State) : (s.reloadFlags).reserved = s.reserved := rfl
@[simp] theorem State.reloadFlags_faultCounts (s : State) : (s.reloadFlags).faultCounts = s.faultCounts := rfl
@[simp] theorem State.reloadFlags_faultPending (s : State) : (s.reloadFlags).faultPending = s.faultPending := rfl
@[simp] theorem State.reloadFlags_ringPtr (s : State) : (s.reloadFlags).ringPtr = s.ringPtr := rfl
@[simp] theorem State.reloadFlags_credit (s : State) : (s.reloadFlags).credit = s.credit := rfl
@[simp] theorem State.reloadFlags_link (s : State) : (s.reloadFlags).link = s.link := rfl
@[simp] theorem State.reloadFlags_pending (s : State) : (s.reloadFlags).pending = s.pending := rfl
@[simp] theorem State.reloadFlags_active (s : State) : (s.reloadFlags).active = s.active := rfl
@[simp] theorem State.reloadFlags_standbyBank (s : State) : (s.reloadFlags).standbyBank = s.standbyBank := rfl

/-! ## openPass: a pass opened (R5) -/

@[simp] theorem State.openPass_passState (s : State) :
    (s.openPass).passState = .opened := rfl
@[simp] theorem State.openPass_passCount (s : State) : (s.openPass).passCount = s.passCount := rfl
@[simp] theorem State.openPass_inHand (s : State) : (s.openPass).inHand = s.inHand := rfl
@[simp] theorem State.openPass_offered (s : State) : (s.openPass).offered = s.offered := rfl
@[simp] theorem State.openPass_trackers (s : State) :
    (s.openPass).trackers = .replicate 4 Tracker.empty := rfl
@[simp] theorem State.openPass_flags (s : State) : (s.openPass).flags = s.flags := rfl
@[simp] theorem State.openPass_ports (s : State) : (s.openPass).ports = s.ports := rfl
@[simp] theorem State.openPass_headLinks (s : State) : (s.openPass).headLinks = s.headLinks := rfl
@[simp] theorem State.openPass_chans (s : State) : (s.openPass).chans = s.chans := rfl
@[simp] theorem State.openPass_bankA (s : State) : (s.openPass).bankA = s.bankA := rfl
@[simp] theorem State.openPass_bankB (s : State) : (s.openPass).bankB = s.bankB := rfl
@[simp] theorem State.openPass_selector (s : State) : (s.openPass).selector = s.selector := rfl
@[simp] theorem State.openPass_standby (s : State) : (s.openPass).standby = s.standby := rfl
@[simp] theorem State.openPass_pendingSwitch (s : State) : (s.openPass).pendingSwitch = s.pendingSwitch := rfl
@[simp] theorem State.openPass_copyPos (s : State) : (s.openPass).copyPos = s.copyPos := rfl
@[simp] theorem State.openPass_queues (s : State) : (s.openPass).queues = s.queues := rfl
@[simp] theorem State.openPass_replies (s : State) : (s.openPass).replies = s.replies := rfl
@[simp] theorem State.openPass_reserved (s : State) : (s.openPass).reserved = s.reserved := rfl
@[simp] theorem State.openPass_faultCounts (s : State) : (s.openPass).faultCounts = s.faultCounts := rfl
@[simp] theorem State.openPass_faultPending (s : State) : (s.openPass).faultPending = s.faultPending := rfl
@[simp] theorem State.openPass_ringPtr (s : State) : (s.openPass).ringPtr = s.ringPtr := rfl
@[simp] theorem State.openPass_credit (s : State) : (s.openPass).credit = s.credit := rfl
@[simp] theorem State.openPass_link (s : State) : (s.openPass).link = s.link := rfl
@[simp] theorem State.openPass_pending (s : State) : (s.openPass).pending = s.pending := rfl
@[simp] theorem State.openPass_active (s : State) : (s.openPass).active = s.active := rfl
@[simp] theorem State.openPass_standbyBank (s : State) : (s.openPass).standbyBank = s.standbyBank := rfl

/-! ## send: a report selected (R189) -/

@[simp] theorem State.send_passState (s : State) (i : Fin 8) (r : Report) : (s.send i r).passState = s.passState := rfl
@[simp] theorem State.send_passCount (s : State) (i : Fin 8) (r : Report) : (s.send i r).passCount = s.passCount := rfl
@[simp] theorem State.send_inHand (s : State) (i : Fin 8) (r : Report) : (s.send i r).inHand = s.inHand := rfl
@[simp] theorem State.send_offered (s : State) (i : Fin 8) (r : Report) : (s.send i r).offered = s.offered := rfl
@[simp] theorem State.send_trackers (s : State) (i : Fin 8) (r : Report) : (s.send i r).trackers = s.trackers := rfl
@[simp] theorem State.send_flags (s : State) (i : Fin 8) (r : Report) : (s.send i r).flags = s.flags := rfl
@[simp] theorem State.send_ports (s : State) (i : Fin 8) (r : Report) : (s.send i r).ports = s.ports := rfl
@[simp] theorem State.send_headLinks (s : State) (i : Fin 8) (r : Report) : (s.send i r).headLinks = s.headLinks := rfl
@[simp] theorem State.send_chans (s : State) (i : Fin 8) (r : Report) : (s.send i r).chans = s.chans := rfl
@[simp] theorem State.send_bankA (s : State) (i : Fin 8) (r : Report) : (s.send i r).bankA = s.bankA := rfl
@[simp] theorem State.send_bankB (s : State) (i : Fin 8) (r : Report) : (s.send i r).bankB = s.bankB := rfl
@[simp] theorem State.send_selector (s : State) (i : Fin 8) (r : Report) : (s.send i r).selector = s.selector := rfl
@[simp] theorem State.send_standby (s : State) (i : Fin 8) (r : Report) : (s.send i r).standby = s.standby := rfl
@[simp] theorem State.send_pendingSwitch (s : State) (i : Fin 8) (r : Report) : (s.send i r).pendingSwitch = s.pendingSwitch := rfl
@[simp] theorem State.send_copyPos (s : State) (i : Fin 8) (r : Report) : (s.send i r).copyPos = s.copyPos := rfl
@[simp] theorem State.send_queues (s : State) (i : Fin 8) (r : Report) : (s.send i r).queues = s.queues := rfl
@[simp] theorem State.send_replies (s : State) (i : Fin 8) (r : Report) : (s.send i r).replies = s.replies := rfl
@[simp] theorem State.send_reserved (s : State) (i : Fin 8) (r : Report) : (s.send i r).reserved = s.reserved := rfl
@[simp] theorem State.send_faultCounts (s : State) (i : Fin 8) (r : Report) : (s.send i r).faultCounts = s.faultCounts := rfl
@[simp] theorem State.send_faultPending (s : State) (i : Fin 8) (r : Report) : (s.send i r).faultPending = s.faultPending := rfl
@[simp] theorem State.send_ringPtr (s : State) (i : Fin 8) (r : Report) :
    (s.send i r).ringPtr = i + 1 := rfl
@[simp] theorem State.send_credit (s : State) (i : Fin 8) (r : Report) :
    (s.send i r).credit = s.credit - 1 := rfl
@[simp] theorem State.send_link (s : State) (i : Fin 8) (r : Report) :
    (s.send i r).link = .busy r := rfl
@[simp] theorem State.send_pending (s : State) (i : Fin 8) (r : Report) : (s.send i r).pending = s.pending := rfl
@[simp] theorem State.send_active (s : State) (i : Fin 8) (r : Report) : (s.send i r).active = s.active := rfl
@[simp] theorem State.send_standbyBank (s : State) (i : Fin 8) (r : Report) : (s.send i r).standbyBank = s.standbyBank := rfl

/-! ## endTransmission: a transmission ended (R189) -/

@[simp] theorem State.endTransmission_passState (s : State) : (s.endTransmission).passState = s.passState := rfl
@[simp] theorem State.endTransmission_passCount (s : State) : (s.endTransmission).passCount = s.passCount := rfl
@[simp] theorem State.endTransmission_inHand (s : State) : (s.endTransmission).inHand = s.inHand := rfl
@[simp] theorem State.endTransmission_offered (s : State) : (s.endTransmission).offered = s.offered := rfl
@[simp] theorem State.endTransmission_trackers (s : State) : (s.endTransmission).trackers = s.trackers := rfl
@[simp] theorem State.endTransmission_flags (s : State) : (s.endTransmission).flags = s.flags := rfl
@[simp] theorem State.endTransmission_ports (s : State) : (s.endTransmission).ports = s.ports := rfl
@[simp] theorem State.endTransmission_headLinks (s : State) : (s.endTransmission).headLinks = s.headLinks := rfl
@[simp] theorem State.endTransmission_chans (s : State) : (s.endTransmission).chans = s.chans := rfl
@[simp] theorem State.endTransmission_bankA (s : State) : (s.endTransmission).bankA = s.bankA := rfl
@[simp] theorem State.endTransmission_bankB (s : State) : (s.endTransmission).bankB = s.bankB := rfl
@[simp] theorem State.endTransmission_selector (s : State) : (s.endTransmission).selector = s.selector := rfl
@[simp] theorem State.endTransmission_standby (s : State) : (s.endTransmission).standby = s.standby := rfl
@[simp] theorem State.endTransmission_pendingSwitch (s : State) : (s.endTransmission).pendingSwitch = s.pendingSwitch := rfl
@[simp] theorem State.endTransmission_copyPos (s : State) : (s.endTransmission).copyPos = s.copyPos := rfl
@[simp] theorem State.endTransmission_queues (s : State) : (s.endTransmission).queues = s.queues := rfl
@[simp] theorem State.endTransmission_replies (s : State) : (s.endTransmission).replies = s.replies := rfl
@[simp] theorem State.endTransmission_reserved (s : State) : (s.endTransmission).reserved = s.reserved := rfl
@[simp] theorem State.endTransmission_faultCounts (s : State) : (s.endTransmission).faultCounts = s.faultCounts := rfl
@[simp] theorem State.endTransmission_faultPending (s : State) : (s.endTransmission).faultPending = s.faultPending := rfl
@[simp] theorem State.endTransmission_ringPtr (s : State) : (s.endTransmission).ringPtr = s.ringPtr := rfl
@[simp] theorem State.endTransmission_credit (s : State) : (s.endTransmission).credit = s.credit := rfl
@[simp] theorem State.endTransmission_link (s : State) :
    (s.endTransmission).link = .free := rfl
@[simp] theorem State.endTransmission_pending (s : State) : (s.endTransmission).pending = s.pending := rfl
@[simp] theorem State.endTransmission_active (s : State) : (s.endTransmission).active = s.active := rfl
@[simp] theorem State.endTransmission_standbyBank (s : State) : (s.endTransmission).standbyBank = s.standbyBank := rfl

/-! ## endSwitch: a pending switch ended (R175) -/

@[simp] theorem State.endSwitch_passState (s : State) (tag : Tag) (o : DirOutcome) (x : ReplyData) : (s.endSwitch tag o x).passState = s.passState := rfl
@[simp] theorem State.endSwitch_passCount (s : State) (tag : Tag) (o : DirOutcome) (x : ReplyData) : (s.endSwitch tag o x).passCount = s.passCount := rfl
@[simp] theorem State.endSwitch_inHand (s : State) (tag : Tag) (o : DirOutcome) (x : ReplyData) : (s.endSwitch tag o x).inHand = s.inHand := rfl
@[simp] theorem State.endSwitch_offered (s : State) (tag : Tag) (o : DirOutcome) (x : ReplyData) : (s.endSwitch tag o x).offered = s.offered := rfl
@[simp] theorem State.endSwitch_trackers (s : State) (tag : Tag) (o : DirOutcome) (x : ReplyData) : (s.endSwitch tag o x).trackers = s.trackers := rfl
@[simp] theorem State.endSwitch_flags (s : State) (tag : Tag) (o : DirOutcome) (x : ReplyData) : (s.endSwitch tag o x).flags = s.flags := rfl
@[simp] theorem State.endSwitch_ports (s : State) (tag : Tag) (o : DirOutcome) (x : ReplyData) : (s.endSwitch tag o x).ports = s.ports := rfl
@[simp] theorem State.endSwitch_headLinks (s : State) (tag : Tag) (o : DirOutcome) (x : ReplyData) : (s.endSwitch tag o x).headLinks = s.headLinks := rfl
@[simp] theorem State.endSwitch_chans (s : State) (tag : Tag) (o : DirOutcome) (x : ReplyData) : (s.endSwitch tag o x).chans = s.chans := rfl
@[simp] theorem State.endSwitch_bankA (s : State) (tag : Tag) (o : DirOutcome) (x : ReplyData) : (s.endSwitch tag o x).bankA = s.bankA := rfl
@[simp] theorem State.endSwitch_bankB (s : State) (tag : Tag) (o : DirOutcome) (x : ReplyData) : (s.endSwitch tag o x).bankB = s.bankB := rfl
@[simp] theorem State.endSwitch_selector (s : State) (tag : Tag) (o : DirOutcome) (x : ReplyData) : (s.endSwitch tag o x).selector = s.selector := rfl
@[simp] theorem State.endSwitch_standby (s : State) (tag : Tag) (o : DirOutcome) (x : ReplyData) : (s.endSwitch tag o x).standby = s.standby := rfl
@[simp] theorem State.endSwitch_pendingSwitch (s : State) (tag : Tag) (o : DirOutcome) (x : ReplyData) :
    (s.endSwitch tag o x).pendingSwitch = none := rfl
@[simp] theorem State.endSwitch_copyPos (s : State) (tag : Tag) (o : DirOutcome) (x : ReplyData) : (s.endSwitch tag o x).copyPos = s.copyPos := rfl
@[simp] theorem State.endSwitch_queues (s : State) (tag : Tag) (o : DirOutcome) (x : ReplyData) : (s.endSwitch tag o x).queues = s.queues := rfl
@[simp] theorem State.endSwitch_replies (s : State) (tag : Tag) (o : DirOutcome) (x : ReplyData) :
    (s.endSwitch tag o x).replies = s.replies ++ [⟨tag, switchCode, o, x⟩] := rfl
@[simp] theorem State.endSwitch_reserved (s : State) (tag : Tag) (o : DirOutcome) (x : ReplyData) :
    (s.endSwitch tag o x).reserved = false := rfl
@[simp] theorem State.endSwitch_faultCounts (s : State) (tag : Tag) (o : DirOutcome) (x : ReplyData) : (s.endSwitch tag o x).faultCounts = s.faultCounts := rfl
@[simp] theorem State.endSwitch_faultPending (s : State) (tag : Tag) (o : DirOutcome) (x : ReplyData) : (s.endSwitch tag o x).faultPending = s.faultPending := rfl
@[simp] theorem State.endSwitch_ringPtr (s : State) (tag : Tag) (o : DirOutcome) (x : ReplyData) : (s.endSwitch tag o x).ringPtr = s.ringPtr := rfl
@[simp] theorem State.endSwitch_credit (s : State) (tag : Tag) (o : DirOutcome) (x : ReplyData) : (s.endSwitch tag o x).credit = s.credit := rfl
@[simp] theorem State.endSwitch_link (s : State) (tag : Tag) (o : DirOutcome) (x : ReplyData) : (s.endSwitch tag o x).link = s.link := rfl
@[simp] theorem State.endSwitch_pending (s : State) (tag : Tag) (o : DirOutcome) (x : ReplyData) : (s.endSwitch tag o x).pending = s.pending := rfl
@[simp] theorem State.endSwitch_active (s : State) (tag : Tag) (o : DirOutcome) (x : ReplyData) : (s.endSwitch tag o x).active = s.active := rfl
@[simp] theorem State.endSwitch_standbyBank (s : State) (tag : Tag) (o : DirOutcome) (x : ReplyData) : (s.endSwitch tag o x).standbyBank = s.standbyBank := rfl

/-! ## setStandbyBank: the standby bank replaced -/

@[simp] theorem State.setStandbyBank_passState (s : State) (b : Bank) : (s.setStandbyBank b).passState = s.passState := by
  unfold State.setStandbyBank; split <;> rfl
@[simp] theorem State.setStandbyBank_passCount (s : State) (b : Bank) : (s.setStandbyBank b).passCount = s.passCount := by
  unfold State.setStandbyBank; split <;> rfl
@[simp] theorem State.setStandbyBank_inHand (s : State) (b : Bank) : (s.setStandbyBank b).inHand = s.inHand := by
  unfold State.setStandbyBank; split <;> rfl
@[simp] theorem State.setStandbyBank_offered (s : State) (b : Bank) : (s.setStandbyBank b).offered = s.offered := by
  unfold State.setStandbyBank; split <;> rfl
@[simp] theorem State.setStandbyBank_trackers (s : State) (b : Bank) : (s.setStandbyBank b).trackers = s.trackers := by
  unfold State.setStandbyBank; split <;> rfl
@[simp] theorem State.setStandbyBank_flags (s : State) (b : Bank) : (s.setStandbyBank b).flags = s.flags := by
  unfold State.setStandbyBank; split <;> rfl
@[simp] theorem State.setStandbyBank_ports (s : State) (b : Bank) : (s.setStandbyBank b).ports = s.ports := by
  unfold State.setStandbyBank; split <;> rfl
@[simp] theorem State.setStandbyBank_headLinks (s : State) (b : Bank) : (s.setStandbyBank b).headLinks = s.headLinks := by
  unfold State.setStandbyBank; split <;> rfl
@[simp] theorem State.setStandbyBank_chans (s : State) (b : Bank) : (s.setStandbyBank b).chans = s.chans := by
  unfold State.setStandbyBank; split <;> rfl
@[simp] theorem State.setStandbyBank_selector (s : State) (b : Bank) : (s.setStandbyBank b).selector = s.selector := by
  unfold State.setStandbyBank; split <;> rfl
@[simp] theorem State.setStandbyBank_standby (s : State) (b : Bank) : (s.setStandbyBank b).standby = s.standby := by
  unfold State.setStandbyBank; split <;> rfl
@[simp] theorem State.setStandbyBank_pendingSwitch (s : State) (b : Bank) : (s.setStandbyBank b).pendingSwitch = s.pendingSwitch := by
  unfold State.setStandbyBank; split <;> rfl
@[simp] theorem State.setStandbyBank_copyPos (s : State) (b : Bank) : (s.setStandbyBank b).copyPos = s.copyPos := by
  unfold State.setStandbyBank; split <;> rfl
@[simp] theorem State.setStandbyBank_queues (s : State) (b : Bank) : (s.setStandbyBank b).queues = s.queues := by
  unfold State.setStandbyBank; split <;> rfl
@[simp] theorem State.setStandbyBank_replies (s : State) (b : Bank) : (s.setStandbyBank b).replies = s.replies := by
  unfold State.setStandbyBank; split <;> rfl
@[simp] theorem State.setStandbyBank_reserved (s : State) (b : Bank) : (s.setStandbyBank b).reserved = s.reserved := by
  unfold State.setStandbyBank; split <;> rfl
@[simp] theorem State.setStandbyBank_faultCounts (s : State) (b : Bank) : (s.setStandbyBank b).faultCounts = s.faultCounts := by
  unfold State.setStandbyBank; split <;> rfl
@[simp] theorem State.setStandbyBank_faultPending (s : State) (b : Bank) : (s.setStandbyBank b).faultPending = s.faultPending := by
  unfold State.setStandbyBank; split <;> rfl
@[simp] theorem State.setStandbyBank_ringPtr (s : State) (b : Bank) : (s.setStandbyBank b).ringPtr = s.ringPtr := by
  unfold State.setStandbyBank; split <;> rfl
@[simp] theorem State.setStandbyBank_credit (s : State) (b : Bank) : (s.setStandbyBank b).credit = s.credit := by
  unfold State.setStandbyBank; split <;> rfl
@[simp] theorem State.setStandbyBank_link (s : State) (b : Bank) : (s.setStandbyBank b).link = s.link := by
  unfold State.setStandbyBank; split <;> rfl
@[simp] theorem State.setStandbyBank_pending (s : State) (b : Bank) : (s.setStandbyBank b).pending = s.pending := by
  unfold State.setStandbyBank; split <;> rfl

@[simp] theorem State.setStandbyBank_active (s : State) (b : Bank) : (s.setStandbyBank b).active = s.active := by
  unfold State.active State.setStandbyBank; cases s.selector <;> rfl
@[simp] theorem State.setStandbyBank_standbyBank (s : State) (b : Bank) : (s.setStandbyBank b).standbyBank = b := by
  unfold State.standbyBank State.setStandbyBank; cases h : s.selector <;> simp

/-! ## onDesk: putDesk of the desk an event leaves -/

theorem State.onDesk_eq (s : State) (n : HeadNo) (f : View → Desk → Desk) :
    s.onDesk n f = s.putDesk n (f (s.view n) (s.desk n)) := rfl

@[simp] theorem State.onDesk_passState (s : State) (n : HeadNo) (f : View → Desk → Desk) :
    (s.onDesk n f).passState = s.passState := rfl
@[simp] theorem State.onDesk_passCount (s : State) (n : HeadNo) (f : View → Desk → Desk) :
    (s.onDesk n f).passCount = s.passCount := rfl
@[simp] theorem State.onDesk_offered (s : State) (n : HeadNo) (f : View → Desk → Desk) :
    (s.onDesk n f).offered = s.offered := rfl
@[simp] theorem State.onDesk_trackers (s : State) (n : HeadNo) (f : View → Desk → Desk) :
    (s.onDesk n f).trackers = s.trackers := rfl
@[simp] theorem State.onDesk_ports (s : State) (n : HeadNo) (f : View → Desk → Desk) :
    (s.onDesk n f).ports = s.ports := rfl
@[simp] theorem State.onDesk_headLinks (s : State) (n : HeadNo) (f : View → Desk → Desk) :
    (s.onDesk n f).headLinks = s.headLinks := rfl
@[simp] theorem State.onDesk_bankA (s : State) (n : HeadNo) (f : View → Desk → Desk) :
    (s.onDesk n f).bankA = s.bankA := rfl
@[simp] theorem State.onDesk_bankB (s : State) (n : HeadNo) (f : View → Desk → Desk) :
    (s.onDesk n f).bankB = s.bankB := rfl
@[simp] theorem State.onDesk_selector (s : State) (n : HeadNo) (f : View → Desk → Desk) :
    (s.onDesk n f).selector = s.selector := rfl
@[simp] theorem State.onDesk_standby (s : State) (n : HeadNo) (f : View → Desk → Desk) :
    (s.onDesk n f).standby = s.standby := rfl
@[simp] theorem State.onDesk_pendingSwitch (s : State) (n : HeadNo) (f : View → Desk → Desk) :
    (s.onDesk n f).pendingSwitch = s.pendingSwitch := rfl
@[simp] theorem State.onDesk_copyPos (s : State) (n : HeadNo) (f : View → Desk → Desk) :
    (s.onDesk n f).copyPos = s.copyPos := rfl
@[simp] theorem State.onDesk_replies (s : State) (n : HeadNo) (f : View → Desk → Desk) :
    (s.onDesk n f).replies = s.replies := rfl
@[simp] theorem State.onDesk_reserved (s : State) (n : HeadNo) (f : View → Desk → Desk) :
    (s.onDesk n f).reserved = s.reserved := rfl
@[simp] theorem State.onDesk_faultCounts (s : State) (n : HeadNo) (f : View → Desk → Desk) :
    (s.onDesk n f).faultCounts = s.faultCounts := rfl
@[simp] theorem State.onDesk_faultPending (s : State) (n : HeadNo) (f : View → Desk → Desk) :
    (s.onDesk n f).faultPending = s.faultPending := rfl
@[simp] theorem State.onDesk_ringPtr (s : State) (n : HeadNo) (f : View → Desk → Desk) :
    (s.onDesk n f).ringPtr = s.ringPtr := rfl
@[simp] theorem State.onDesk_credit (s : State) (n : HeadNo) (f : View → Desk → Desk) :
    (s.onDesk n f).credit = s.credit := rfl
@[simp] theorem State.onDesk_link (s : State) (n : HeadNo) (f : View → Desk → Desk) :
    (s.onDesk n f).link = s.link := rfl
@[simp] theorem State.onDesk_pending (s : State) (n : HeadNo) (f : View → Desk → Desk) :
    (s.onDesk n f).pending = s.pending := rfl
@[simp] theorem State.onDesk_active (s : State) (n : HeadNo) (f : View → Desk → Desk) :
    (s.onDesk n f).active = s.active := rfl
@[simp] theorem State.onDesk_standbyBank (s : State) (n : HeadNo) (f : View → Desk → Desk) :
    (s.onDesk n f).standbyBank = s.standbyBank := rfl

/-! ## raiseAll: several notices -/

@[simp] theorem State.raiseAll_passState (s : State) (ks : List FaultKind) : (s.raiseAll ks).passState = s.passState := by
  induction ks generalizing s with
  | nil => rfl
  | cons k ks ih => exact ih (s.raise k)
@[simp] theorem State.raiseAll_passCount (s : State) (ks : List FaultKind) : (s.raiseAll ks).passCount = s.passCount := by
  induction ks generalizing s with
  | nil => rfl
  | cons k ks ih => exact ih (s.raise k)
@[simp] theorem State.raiseAll_inHand (s : State) (ks : List FaultKind) : (s.raiseAll ks).inHand = s.inHand := by
  induction ks generalizing s with
  | nil => rfl
  | cons k ks ih => exact ih (s.raise k)
@[simp] theorem State.raiseAll_offered (s : State) (ks : List FaultKind) : (s.raiseAll ks).offered = s.offered := by
  induction ks generalizing s with
  | nil => rfl
  | cons k ks ih => exact ih (s.raise k)
@[simp] theorem State.raiseAll_trackers (s : State) (ks : List FaultKind) : (s.raiseAll ks).trackers = s.trackers := by
  induction ks generalizing s with
  | nil => rfl
  | cons k ks ih => exact ih (s.raise k)
@[simp] theorem State.raiseAll_flags (s : State) (ks : List FaultKind) : (s.raiseAll ks).flags = s.flags := by
  induction ks generalizing s with
  | nil => rfl
  | cons k ks ih => exact ih (s.raise k)
@[simp] theorem State.raiseAll_ports (s : State) (ks : List FaultKind) : (s.raiseAll ks).ports = s.ports := by
  induction ks generalizing s with
  | nil => rfl
  | cons k ks ih => exact ih (s.raise k)
@[simp] theorem State.raiseAll_headLinks (s : State) (ks : List FaultKind) : (s.raiseAll ks).headLinks = s.headLinks := by
  induction ks generalizing s with
  | nil => rfl
  | cons k ks ih => exact ih (s.raise k)
@[simp] theorem State.raiseAll_chans (s : State) (ks : List FaultKind) : (s.raiseAll ks).chans = s.chans := by
  induction ks generalizing s with
  | nil => rfl
  | cons k ks ih => exact ih (s.raise k)
@[simp] theorem State.raiseAll_bankA (s : State) (ks : List FaultKind) : (s.raiseAll ks).bankA = s.bankA := by
  induction ks generalizing s with
  | nil => rfl
  | cons k ks ih => exact ih (s.raise k)
@[simp] theorem State.raiseAll_bankB (s : State) (ks : List FaultKind) : (s.raiseAll ks).bankB = s.bankB := by
  induction ks generalizing s with
  | nil => rfl
  | cons k ks ih => exact ih (s.raise k)
@[simp] theorem State.raiseAll_selector (s : State) (ks : List FaultKind) : (s.raiseAll ks).selector = s.selector := by
  induction ks generalizing s with
  | nil => rfl
  | cons k ks ih => exact ih (s.raise k)
@[simp] theorem State.raiseAll_standby (s : State) (ks : List FaultKind) : (s.raiseAll ks).standby = s.standby := by
  induction ks generalizing s with
  | nil => rfl
  | cons k ks ih => exact ih (s.raise k)
@[simp] theorem State.raiseAll_pendingSwitch (s : State) (ks : List FaultKind) : (s.raiseAll ks).pendingSwitch = s.pendingSwitch := by
  induction ks generalizing s with
  | nil => rfl
  | cons k ks ih => exact ih (s.raise k)
@[simp] theorem State.raiseAll_copyPos (s : State) (ks : List FaultKind) : (s.raiseAll ks).copyPos = s.copyPos := by
  induction ks generalizing s with
  | nil => rfl
  | cons k ks ih => exact ih (s.raise k)
@[simp] theorem State.raiseAll_queues (s : State) (ks : List FaultKind) : (s.raiseAll ks).queues = s.queues := by
  induction ks generalizing s with
  | nil => rfl
  | cons k ks ih => exact ih (s.raise k)
@[simp] theorem State.raiseAll_replies (s : State) (ks : List FaultKind) : (s.raiseAll ks).replies = s.replies := by
  induction ks generalizing s with
  | nil => rfl
  | cons k ks ih => exact ih (s.raise k)
@[simp] theorem State.raiseAll_reserved (s : State) (ks : List FaultKind) : (s.raiseAll ks).reserved = s.reserved := by
  induction ks generalizing s with
  | nil => rfl
  | cons k ks ih => exact ih (s.raise k)
@[simp] theorem State.raiseAll_ringPtr (s : State) (ks : List FaultKind) : (s.raiseAll ks).ringPtr = s.ringPtr := by
  induction ks generalizing s with
  | nil => rfl
  | cons k ks ih => exact ih (s.raise k)
@[simp] theorem State.raiseAll_credit (s : State) (ks : List FaultKind) : (s.raiseAll ks).credit = s.credit := by
  induction ks generalizing s with
  | nil => rfl
  | cons k ks ih => exact ih (s.raise k)
@[simp] theorem State.raiseAll_link (s : State) (ks : List FaultKind) : (s.raiseAll ks).link = s.link := by
  induction ks generalizing s with
  | nil => rfl
  | cons k ks ih => exact ih (s.raise k)
@[simp] theorem State.raiseAll_pending (s : State) (ks : List FaultKind) : (s.raiseAll ks).pending = s.pending := by
  induction ks generalizing s with
  | nil => rfl
  | cons k ks ih => exact ih (s.raise k)
@[simp] theorem State.raiseAll_active (s : State) (ks : List FaultKind) : (s.raiseAll ks).active = s.active := by
  induction ks generalizing s with
  | nil => rfl
  | cons k ks ih => exact ih (s.raise k)
@[simp] theorem State.raiseAll_standbyBank (s : State) (ks : List FaultKind) : (s.raiseAll ks).standbyBank = s.standbyBank := by
  induction ks generalizing s with
  | nil => rfl
  | cons k ks ih => exact ih (s.raise k)

end Sys2Proof.Machine
end

