-- ==== Sys2Proof/Laws/Ports.lean ====
section
/-! SUPPORT. The Head Port's operations: what forwarding, completing, ageing and trimming do to the credit, the trail
and the timer, each said once. -/

namespace Sys2Proof.Machine

/-! ## Per-head vectors -/

@[simp] theorem perHead_get {α : Type} (f : HeadNo → α) (n : HeadNo) : (perHead f)[n] = f n := by
  revert n; intro n; fin_cases n <;> rfl

@[simp] theorem mem_allHeads (n : HeadNo) : n ∈ allHeads := by fin_cases n <;> simp [allHeads]

theorem allHeads_nodup : allHeads.Nodup := by decide

@[simp] theorem vec_set_self {α : Type} (v : Vector α 4) (n : HeadNo) (x : α) : (v.set n x)[n] = x := by
  fin_cases n <;> simp

theorem vec_set_ne {α : Type} (v : Vector α 4) {n m : HeadNo} (x : α) (h : n ≠ m) : (v.set n x)[m] = v[m] := by
  have h' : n.val ≠ m.val := fun e => h (Fin.ext e)
  simp only [Fin.getElem_fin]
  exact Vector.getElem_set_ne _ _ h'

/-- Entry `m` after entry `n` is set. -/
theorem vec_set_get {α : Type} (v : Vector α 4) (n m : HeadNo) (x : α) :
    (v.set n x)[m] = if n = m then x else v[m] := by
  split
  · next h => subst h; simp
  · next h => exact vec_set_ne v x h

/-- Two per-head vectors with the same entries are the same. -/
theorem vec_ext {α : Type} {v w : Vector α 4} (h : ∀ n : HeadNo, v[n] = w[n]) : v = w := by
  apply Vector.ext
  intro i hi
  exact h ⟨i, hi⟩

/-! ## Counting -/

@[simp] theorem sentCount_nil : sentCount [] = 0 := rfl
@[simp] theorem drawnCount_nil : drawnCount [] = 0 := rfl

@[simp] theorem sentCount_append (t u : List TrailEntry) : sentCount (t ++ u) = sentCount t + sentCount u := by
  simp [sentCount]

@[simp] theorem drawnCount_append (t u : List TrailEntry) : drawnCount (t ++ u) = drawnCount t + drawnCount u := by
  simp [drawnCount]

theorem sentCount_of_drawn {t : List TrailEntry} (h : ∀ e ∈ t, e.state = .drawn) : sentCount t = 0 := by
  unfold sentCount
  rw [List.countP_eq_zero]
  intro e he
  simp [TrailEntry.isSent, h e he]

theorem sentCount_of_sent {t : List TrailEntry} (h : ∀ e ∈ t, e.state = .sent) : sentCount t = t.length := by
  unfold sentCount
  rw [List.countP_eq_length]
  intro e he
  simp [TrailEntry.isSent, h e he]

theorem drawnCount_of_drawn {t : List TrailEntry} (h : ∀ e ∈ t, e.state = .drawn) : drawnCount t = t.length := by
  unfold drawnCount
  rw [List.countP_eq_length]
  intro e he
  simp [TrailEntry.isDrawn, h e he]

theorem drawnCount_of_sent {t : List TrailEntry} (h : ∀ e ∈ t, e.state = .sent) : drawnCount t = 0 := by
  unfold drawnCount
  rw [List.countP_eq_zero]
  intro e he
  simp [TrailEntry.isDrawn, h e he]

/-! ## Forwarding (R34) -/

@[simp] theorem Prepared.entry_state (p : Prepared) (beam : Point) : (p.entry beam).state = .sent := rfl

@[simp] theorem HeadPort.forward_credit (limit : Nat) (h : HeadPort) (p : Prepared) :
    (h.forward limit p).credit = h.credit - 1 := rfl
@[simp] theorem HeadPort.forward_state (limit : Nat) (h : HeadPort) (p : Prepared) :
    (h.forward limit p).state = h.state := rfl
@[simp] theorem HeadPort.forward_trail (limit : Nat) (h : HeadPort) (p : Prepared) :
    (h.forward limit p).trail = h.trail ++ [p.entry h.beam] := rfl

/-- What `pump` forwards is the first of the records, as many as there is credit (R14, R15). -/
theorem HeadPort.pump_eq (limit : Nat) (ps : List Prepared) (h : HeadPort) :
    HeadPort.pump limit ps h =
      (ps.drop h.credit, (ps.take h.credit).foldl (HeadPort.forward limit) h,
        (ps.take h.credit).map Prepared.record) := by
  induction ps generalizing h with
  | nil => simp [HeadPort.pump]
  | cons p ps ih =>
    unfold HeadPort.pump
    by_cases hc : h.credit = 0
    · simp [hc]
    · obtain ⟨c, hc'⟩ := Nat.exists_eq_succ_of_ne_zero hc
      simp [hc', ih]

/-- A property that forwarding keeps is kept by `pump`. -/
theorem HeadPort.pump_keeps {P : HeadPort → Prop} {limit : Nat}
    (step : ∀ h p, P h → h.credit ≠ 0 → P (h.forward limit p)) (ps : List Prepared) (h : HeadPort) (hP : P h) :
    P (HeadPort.pump limit ps h).2.1 := by
  induction ps generalizing h with
  | nil => exact hP
  | cons p ps ih =>
    unfold HeadPort.pump
    by_cases hc : h.credit = 0
    · simpa [hc] using hP
    · simpa [hc] using ih _ (step h p hP hc)

/-! ## The trail -/

/-- Ageing takes away DRAWN entries only. -/
theorem sentCount_dropDrawn (k : Nat) (t : List TrailEntry) : sentCount (dropDrawn k t) = sentCount t := by
  induction t generalizing k with
  | nil => cases k <;> rfl
  | cons e t ih =>
    cases k with
    | zero => rfl
    | succ k =>
      unfold dropDrawn
      by_cases he : e.isDrawn = true
      · have hs : e.isSent = false := by
          cases e with | mk o k v s p st => cases st <;> simp_all [TrailEntry.isDrawn, TrailEntry.isSent]
        simp only [he, if_true, ih]
        simp [sentCount, hs]
      · simp only [he, if_neg, Bool.false_eq_true, not_false_eq_true]
        simp only [sentCount, List.countP_cons] at *
        rw [ih]

theorem drawnCount_dropDrawn (k : Nat) (t : List TrailEntry) : drawnCount (dropDrawn k t) = drawnCount t - k := by
  induction t generalizing k with
  | nil => cases k <;> simp [dropDrawn]
  | cons e t ih =>
    cases k with
    | zero => rfl
    | succ k =>
      unfold dropDrawn
      by_cases he : e.isDrawn = true
      · simp only [he, if_true, ih]
        simp [drawnCount, he]
      · simp only [he, if_neg, Bool.false_eq_true, not_false_eq_true]
        have := ih (k + 1)
        simp only [drawnCount, List.countP_cons] at *
        rw [this]
        simp [he]

/-- On an ordered trail, ageing drops the oldest. -/
theorem dropDrawn_ordered (k : Nat) {d s : List TrailEntry} (hd : ∀ e ∈ d, e.state = .drawn) (hk : k ≤ d.length) :
    dropDrawn k (d ++ s) = d.drop k ++ s := by
  induction d generalizing k with
  | nil => simp at hk; subst hk; cases s <;> rfl
  | cons e d ih =>
    cases k with
    | zero => rfl
    | succ k =>
      have he : e.isDrawn = true := by simp [TrailEntry.isDrawn, hd e (by simp)]
      simp only [List.cons_append, dropDrawn, he, if_true, List.drop_succ_cons]
      exact ih _ (fun x hx => hd x (by simp [hx])) (by simpa using hk)

/-- On an ordered trail with a SENT entry, a completion takes the first of the SENT run (R38). -/
theorem retireOldest_ordered {d s : List TrailEntry} {e : TrailEntry} (hd : ∀ x ∈ d, x.state = .drawn)
    (he : e.state = .sent) :
    retireOldest (d ++ e :: s) = d ++ (if e.visible then [{ e with state := .drawn }] else []) ++ s := by
  induction d with
  | nil =>
    simp only [List.nil_append, retireOldest, TrailEntry.isSent, he, beq_self_eq_true, if_true]
    split <;> rfl
  | cons x d ih =>
    have hx : x.isSent = false := by simp [TrailEntry.isSent, hd x (by simp)]
    simp only [List.cons_append, retireOldest, hx, Bool.false_eq_true, if_false, List.cons.injEq, true_and]
    simpa using ih (fun y hy => hd y (by simp [hy]))

/-- On an ordered trail, a trim to a lag keeps the newest DRAWN entries and every SENT one (R47). -/
theorem trimTrail_ordered (lag : Nat) {d s : List TrailEntry} (hd : ∀ e ∈ d, e.state = .drawn)
    (hs : ∀ e ∈ s, e.state = .sent) : trimTrail lag (d ++ s) = d.drop (d.length - lag) ++ s := by
  unfold trimTrail
  rw [drawnCount_append, drawnCount_of_drawn hd, drawnCount_of_sent hs, Nat.add_zero]
  exact dropDrawn_ordered _ hd (by omega)

end Sys2Proof.Machine
end

