-- ==== Sys2Proof/Laws/Desks.lean ====
section
/-! SUPPORT. What an event at a Pen Channel does to the part, and what one element of a hit list does to the channel,
each said once. -/

namespace Sys2Proof.Machine

/-! ## Events at a channel -/

/-- An event that leaves its desk as it stands leaves the part as it stands. -/
theorem State.onDesk_same {s : State} {n : HeadNo} {f : View → Desk → Desk} (h : f (s.view n) (s.desk n) = s.desk n) :
    s.onDesk n f = s := by
  unfold State.onDesk
  rw [h]
  unfold State.putDesk State.desk
  simp

/-- An event that does not leave POPUP with deliveries in hand: the channel, its queue and the flags are those of the
desk, and nothing else changes. -/
theorem State.onDesk_within {s : State} {n : HeadNo} {f : View → Desk → Desk} {d : Desk} (h : f (s.view n) (s.desk n) = d)
    (hp : s.chans[n].state.isPopup = false ∨ d.chan.state.isPopup = true ∨ s.inHand = none) :
    s.onDesk n f = { s with chans := s.chans.set n d.chan, queues := s.queues.set n d.queue, flags := d.flags } := by
  have hi : (if s.chans[n].state.isPopup && !d.chan.state.isPopup then s.inHand.map (InHand.endPopup n)
      else s.inHand) = s.inHand := by
    rcases hp with hp | hp | hp
    · rw [hp]; rfl
    · rw [hp]; simp
    · rw [hp]; simp
  unfold State.onDesk
  rw [h]
  unfold State.putDesk
  rw [hi]

/-- An event that changes the channel alone. -/
theorem State.onDesk_chan {s : State} {n : HeadNo} {f : View → Desk → Desk} {c : PenChannel}
    (h : f (s.view n) (s.desk n) = { s.desk n with chan := c })
    (hp : s.chans[n].state.isPopup = false ∨ c.state.isPopup = true ∨ s.inHand = none) :
    s.onDesk n f = { s with chans := s.chans.set n c } := by
  rw [State.onDesk_within h hp]
  unfold State.desk
  simp

/-- A report offered: with room in the queue (R80). -/
theorem Desk.offer_room {d : Desk} (r : ChannelReport) (succ : Successor) (h : d.queue.length < 4) :
    d.offer r succ = { d.setState succ.enter with queue := d.queue ++ [r] } := by
  unfold Desk.offer
  rw [if_pos (show d.room = true from decide_eq_true h)]

/-- A report offered: without room (R80). -/
theorem Desk.offer_full {d : Desk} (r : ChannelReport) (succ : Successor) (h : ¬ d.queue.length < 4) :
    d.offer r succ = d.setState (.wait r succ) := by
  unfold Desk.offer
  rw [if_neg (show ¬ d.room = true from fun hr => h (of_decide_eq_true hr))]

/-! ## The candidate table -/

theorem PenChannel.anyCandidate_eq_false {c : PenChannel} : c.anyCandidate = false ↔ ∀ i : Fin 4, c.table[i] = none := by
  unfold PenChannel.anyCandidate
  rw [Bool.eq_false_iff, ne_eq, List.any_eq_true]
  constructor
  · intro h i
    by_contra hc
    exact h ⟨c.table[i], by rw [Vector.mem_toList_iff]; exact Vector.getElem_mem i.2,
      by cases hh : c.table[i] <;> simp_all⟩
  · rintro h ⟨x, hx, hs⟩
    rw [Vector.mem_toList_iff] at hx
    obtain ⟨j, hj, e⟩ := Vector.mem_iff_getElem.1 hx
    have := h ⟨j, hj⟩
    simp only [Fin.getElem_fin] at this
    rw [this] at e
    subst e
    cases hs

/-- Taking a hit moves only the table, the tree and the crowded flag (R71, R72). -/
theorem PenChannel.takeHit_frame (lag : Bool) (c : PenChannel) (h : Hit) :
    c.takeHit lag h =
      { c with
        table := (c.takeHit lag h).table, tree := (c.takeHit lag h).tree, crowded := (c.takeHit lag h).crowded } := by
  unfold PenChannel.takeHit
  repeat' split
  all_goals rfl

/-- The entry that has an identity, where no other has it. -/
theorem findEntry_eq_some {t : Vector (Option Candidate) 4} {id : Identity} {i : Fin 4} {e : Candidate}
    (h : t[i] = some e) (he : e.ident = id)
    (unique : ∀ (j : Fin 4) (f : Candidate), t[j] = some f → f.ident = id → j = i) : findEntry t id = some i := by
  unfold findEntry
  cases hf : allHeads.find? fun i => (t[i].map (·.ident)) == some id with
  | none =>
    rw [List.find?_eq_none] at hf
    have := hf i (mem_allHeads i)
    simp only [h, Option.map_some, he, BEq.rfl, not_true_eq_false] at this
  | some j =>
    have := List.find?_some hf
    cases hj : t[j] with
    | none => rw [hj] at this; simp at this
    | some f => rw [hj] at this; simp at this; rw [unique j f hj this]

/-- No entry has an identity. -/
theorem findEntry_eq_none {t : Vector (Option Candidate) 4} {id : Identity} :
    findEntry t id = none ↔ ∀ (i : Fin 4) (e : Candidate), t[i] = some e → e.ident ≠ id := by
  unfold findEntry
  rw [List.find?_eq_none]
  constructor
  · intro h i e hi
    have := h i (mem_allHeads i)
    simpa [hi] using this
  · intro h i _
    cases hi : t[i] with
    | none => simp
    | some e => simpa using h i e hi

end Sys2Proof.Machine
end

