-- ==== Sys2Proof/Laws/Attempts.lean ====
section
/-! SUPPORT. The choice among candidates and among tallied items: the first of a list in the order of the keys, the
candidates on either side of an entry, the counter chosen; and that a TIP-UP does not read the tip. -/

namespace Sys2Proof.Machine

/-! ## The order of the keys (R76) -/

theorem keysLess_irrefl (x : List Nat) : keysLess x x = false := by
  induction x with
  | nil => rfl
  | cons a x ih => simp [keysLess, ih]

theorem keysLess_asymm (x y : List Nat) (h : keysLess x y = true) : keysLess y x = false := by
  induction x generalizing y with
  | nil => cases y <;> simp [keysLess] at h
  | cons a x ih =>
    cases y with
    | nil => simp [keysLess] at h
    | cons b y =>
      simp only [keysLess, Bool.or_eq_true, decide_eq_true_eq, Bool.and_eq_true, beq_iff_eq] at h
      simp only [keysLess, Bool.or_eq_false_iff, decide_eq_false_iff_not, Bool.and_eq_false_iff, beq_eq_false_iff_ne]
      rcases h with h | ⟨rfl, h⟩
      · exact ⟨by omega, .inl (by omega)⟩
      · exact ⟨by omega, .inr (ih _ h)⟩

/-- Only an empty list has no first. -/
theorem firstOf_eq_none {b : Bank} {l : List Candidate} (h : firstOf b l = none) : l = [] := by
  cases l with
  | nil => rfl
  | cons y ys => unfold firstOf at h; split at h <;> (try split at h) <;> cases h

/-- The first is of the list, and none of the list has more hits. -/
theorem firstOf_mem {b : Bank} {l : List Candidate} {x : Candidate} (h : firstOf b l = some x) :
    x ∈ l ∧ ∀ d ∈ l, d.hits ≤ x.hits := by
  induction l generalizing x with
  | nil => cases h
  | cons c cs ih =>
    unfold firstOf at h
    cases hf : firstOf b cs with
    | none =>
      have := firstOf_eq_none hf
      subst this
      simp [firstOf] at h
      subst h
      simp
    | some y =>
      obtain ⟨h1, h2⟩ := ih hf
      rw [hf] at h
      dsimp only at h
      split at h
      · next hk =>
        cases h
        refine ⟨by simp [h1], fun d hd => ?_⟩
        rcases List.mem_cons.1 hd with rfl | hd
        · simp [keysLess, Candidate.keys] at hk; omega
        · exact h2 d hd
      · next hk =>
        cases h
        refine ⟨by simp, fun d hd => ?_⟩
        rcases List.mem_cons.1 hd with rfl | hd
        · exact Nat.le_refl _
        · have := h2 d hd
          simp [keysLess, Candidate.keys] at hk
          omega

/-- A candidate is first when the keys of every earlier one are less, and the keys of every later one are less or
equal. -/
theorem firstOf_append {b : Bank} {w : Candidate} {pre post : List Candidate}
    (hpre : ∀ c ∈ pre, keysLess (c.keys b) (w.keys b) = true)
    (hpost : ∀ c ∈ post, keysLess (c.keys b) (w.keys b) = true ∨ c.keys b = w.keys b) :
    firstOf b (pre ++ w :: post) = some w := by
  induction pre with
  | nil =>
    simp only [List.nil_append]
    unfold firstOf
    cases hf : firstOf b post with
    | none => rfl
    | some y =>
      have : keysLess (w.keys b) (y.keys b) = false := by
        rcases hpost y (firstOf_mem hf).1 with h | h
        · exact keysLess_asymm _ _ h
        · rw [h]; exact keysLess_irrefl _
      simp [this]
  | cons c cs ih =>
    simp only [List.cons_append]
    unfold firstOf
    rw [ih fun c hc => hpre c (by simp [hc])]
    simp [hpre c (by simp)]

/-- The candidates of a channel around a valid entry: those before it are the valid entries of lower number, those
after it the valid entries of higher number. -/
theorem PenChannel.candidates_around (c : PenChannel) {i : Fin 4} {w : Candidate} (h : c.table[i] = some w) :
    ∃ pre post, c.candidates = pre ++ w :: post ∧ (∀ d, d ∈ pre ↔ ∃ j : Fin 4, j < i ∧ c.table[j] = some d) ∧
      ∀ d, d ∈ post ↔ ∃ j : Fin 4, i < j ∧ c.table[j] = some d := by
  have size : c.table.toList.length = 4 := by simp
  have split : c.table.toList = c.table.toList.take i ++ some w :: c.table.toList.drop (i + 1) := by
    have : c.table.toList[i.val]'(by omega) = some w := by simpa using h
    rw [← this, List.getElem_cons_drop, List.take_append_drop]
  have mem : ∀ (d : Candidate) (l : List (Option Candidate)), d ∈ l.filterMap id ↔ some d ∈ l := by
    intro d l; simp
  refine ⟨(c.table.toList.take i).filterMap id, (c.table.toList.drop (i + 1)).filterMap id,
    ?_, fun d => ?_, fun d => ?_⟩
  · unfold PenChannel.candidates
    conv_lhs => rw [split]
    rw [List.filterMap_append]
    rfl
  · rw [mem, List.mem_take_iff_getElem]
    constructor
    · rintro ⟨j, hj, e⟩
      exact ⟨⟨j, by omega⟩, by show j < i.val; omega, by simpa using e⟩
    · rintro ⟨j, hj, e⟩
      have : j.val < i.val := hj
      exact ⟨j.val, by omega, by simpa using e⟩
  · rw [mem, List.mem_drop_iff_getElem]
    constructor
    · rintro ⟨j, hj, e⟩
      exact ⟨⟨i + 1 + j, by omega⟩, by show i.val < i + 1 + j; omega, by simpa using e⟩
    · rintro ⟨j, hj, e⟩
      have : i.val < j.val := hj
      exact ⟨j - (i + 1), by omega, by simpa [show i.val + 1 + (j.val - (i.val + 1)) = j.val by omega] using e⟩

/-! ## The counter chosen (R118) -/

/-- The highest counter of a list, from index `i` on: the first of equals. -/
theorem highestFrom_eq (l : List Nat) (i k : Nat) (hk : k < l.length) (pos : 0 < l[k])
    (le : ∀ j (hj : j < l.length), l[j] ≤ l[k]) (lt : ∀ j (hj : j < k), l[j] < l[k]) :
    highestFrom i l = (i + k, l[k]) := by
  have value : ∀ (l : List Nat) (i : Nat), (highestFrom i l).2 = 0 ∨ (highestFrom i l).2 ∈ l := by
    intro l
    induction l with
    | nil => intro i; exact .inl rfl
    | cons x xs ih =>
      intro i
      unfold highestFrom
      dsimp only
      split
      · rcases ih (i + 1) with h | h
        · exact .inl h
        · exact .inr (by simp [h])
      · exact .inr (by simp)
  induction l generalizing i k with
  | nil => simp at hk
  | cons c cs ih =>
    cases k with
    | zero =>
      unfold highestFrom
      dsimp only
      have : ¬ c < (highestFrom (i + 1) cs).2 := by
        rcases value cs (i + 1) with h | h
        · omega
        · obtain ⟨j, hj, e⟩ := List.mem_iff_getElem.1 h
          have := le (j + 1) (by simpa using hj)
          simp at this
          omega
      rw [if_neg this]
      rfl
    | succ k =>
      have hk' : k < cs.length := by simpa using hk
      have := ih (i + 1) k hk' (by simpa using pos)
        (fun j hj => by have := le (j + 1) (by simpa using hj); simpa using this)
        (fun j hj => by have := lt (j + 1) (by omega); simpa using this)
      unfold highestFrom
      dsimp only
      rw [this]
      have first := lt 0 (by omega)
      simp only [List.getElem_cons_zero, List.getElem_cons_succ] at first
      rw [if_pos first]
      simp
      omega

/-- The tally is non-empty when some counter is at least 1 (R116). -/
theorem Popup.tallied_iff (p : Popup) : p.tallied = true ↔ ∃ k : Fin 32, 0 < p.tally[k] := by
  unfold Popup.tallied
  rw [List.any_eq_true]
  constructor
  · rintro ⟨x, hx, he⟩
    rw [Vector.mem_toList_iff] at hx
    obtain ⟨j, hj, e⟩ := Vector.mem_iff_getElem.1 hx
    exact ⟨⟨j, hj⟩, by simpa [e] using he⟩
  · rintro ⟨k, hk⟩
    exact ⟨_, by rw [Vector.mem_toList_iff]; exact Vector.getElem_mem k.2, by simpa using hk⟩

/-- The item chosen is the lowest of those whose counter is highest (R118). -/
theorem Popup.chosen_eq (p : Popup) (k : Fin 32) (pos : 0 < p.tally[k]) (le : ∀ j : Fin 32, p.tally[j] ≤ p.tally[k])
    (lt : ∀ j : Fin 32, j < k → p.tally[j] < p.tally[k]) : p.chosen = BitVec.ofFin k := by
  unfold Popup.chosen
  rw [highestFrom_eq p.tally.toList 0 k.val (by simp) (by simpa using pos)
    (fun j hj => by simpa using le ⟨j, by simpa using hj⟩)
    (fun j hj => by simpa using lt ⟨j, by have := k.2; omega⟩ hj)]
  apply BitVec.eq_of_toNat_eq
  simp

/-! ## A TIP-UP does not read the tip -/

/-- A desk with its channel's tip at another level. -/
def Desk.withTip (d : Desk) (t : Tip) : Desk := { d with chan := { d.chan with tip := t } }

theorem Desk.offer_withTip (d : Desk) (t : Tip) (r : ChannelReport) (succ : Successor) :
    (d.withTip t).offer r succ = (d.offer r succ).withTip t := by
  unfold Desk.offer Desk.withTip Desk.room
  dsimp only
  split <;> rfl

theorem fixedAction_withTip (b : Bank) (d : Desk) (t : Tip) (i : ItemEntry) :
    fixedAction b (d.withTip t) i = (fixedAction b d i).withTip t := by
  unfold fixedAction
  split <;> rfl

/-- A release resolution does not read the tip. -/
theorem resolve_withTip (v : View) (pass : PassNo) (d : Desk) (t : Tip) :
    resolve v .release pass (d.withTip t) = (resolve v .release pass d).withTip t := by
  unfold resolve
  show (match d.chan.winner v.bank with | none => _ | some w => _) = _
  cases d.chan.winner v.bank with
  | none => rfl
  | some w =>
    dsimp only
    cases w.ident with
    | pick path =>
      dsimp only
      unfold resolvePick
      dsimp only
      have e : ∀ x y, pickSuccessor .release x y w = .idle := fun _ _ => rfl
      rw [e, e]
      split
      · exact Desk.offer_withTip ⟨{ d.chan.clearTable with highlight := some path }, d.queue, d.flags⟩ t _ _
      · exact Desk.offer_withTip ⟨d.chan.clearTable, d.queue, d.flags⟩ t _ _
    | menu m it =>
      dsimp only
      unfold resolveMenu
      dsimp only
      split
      · rw [← fixedAction_withTip, ← Desk.offer_withTip]; rfl
      · rw [← Desk.offer_withTip]; rfl

/-- What a TIP-UP does to a channel does not depend on the tip it finds. -/
theorem tipUpOffered_withTip (v : View) (d : Desk) (t : Tip) :
    tipUpOffered v (d.withTip t) = (tipUpOffered v d).withTip t := by
  unfold tipUpOffered
  show (match v.port.state, d.chan.state with
    | .down, _ => _ | .up, .gather => _ | .up, .held => _ | .up, .track t => _ | .up, .popup p => _
    | .up, .off | .up, .idle | .up, .wait .. => _) = _
  cases v.port.state with
  | down => rfl
  | up =>
    cases d.chan.state with
    | gather =>
      dsimp only
      unfold gatherTipUp
      show (if d.chan.anyCandidate then _ else _) = _
      split
      · exact resolve_withTip _ _ _ _
      · exact Desk.offer_withTip { d with chan := d.chan.clearTable } t _ _
    | track => exact Desk.offer_withTip _ _ _ _
    | off | idle | held | popup | wait => rfl

/-! ## The ways out of POPUP leave POPUP (R113) -/

theorem Desk.offer_isPopup (d : Desk) (r : ChannelReport) (succ : Successor) :
    (d.offer r succ).chan.state.isPopup = false := by
  unfold Desk.offer
  split
  · cases succ <;> rfl
  · rfl

theorem fixedAction_state (b : Bank) (d : Desk) (i : ItemEntry) : (fixedAction b d i).chan.state = d.chan.state := by
  unfold fixedAction
  split <;> rfl

theorem resolve_isPopup {v : View} {k : Resolution} {pass : PassNo} {d : Desk} (h : d.chan.state.isPopup = false) :
    (resolve v k pass d).chan.state.isPopup = false := by
  unfold resolve
  split
  · exact h
  · dsimp only
    split
    · exact Desk.offer_isPopup _ _ _
    · unfold resolveMenu
      dsimp only
      split
      · rw [fixedAction_state]; exact Desk.offer_isPopup _ _ _
      · exact Desk.offer_isPopup _ _ _

theorem tipUpOffered_isPopup {v : View} {d : Desk} (h : d.chan.state.isPopup = false) :
    (tipUpOffered v d).chan.state.isPopup = false := by
  unfold tipUpOffered
  split
  · exact h
  · unfold gatherTipUp
    split
    · exact resolve_isPopup h
    · exact Desk.offer_isPopup _ _ _
  · rfl
  · exact Desk.offer_isPopup _ _ _
  · next hh => rw [hh] at h; cases h
  all_goals exact h

theorem tipDownOffered_isPopup {v : View} {d : Desk} (h : d.chan.state.isPopup = false) :
    (tipDownOffered v d).chan.state.isPopup = false := by
  unfold tipDownOffered
  split
  · exact h
  · rfl
  all_goals exact h

/-- A restore leaves POPUP (R121, R122). -/
theorem restore_isPopup (v : View) (p : Popup) (d : Desk) : (restore v p d).chan.state.isPopup = false := by
  unfold restore reconcileTip
  dsimp only
  have h : p.slot.state.restore.isPopup = false := by cases p.slot.state <;> rfl
  split <;> split
  · exact tipDownOffered_isPopup (tipUpOffered_isPopup h)
  · exact tipDownOffered_isPopup h
  · exact tipUpOffered_isPopup h
  · exact h

/-- A choice leaves POPUP (R119). -/
theorem makeChoice_isPopup (v : View) (pass : PassNo) (p : Popup) (d : Desk) :
    (makeChoice v pass p d).chan.state.isPopup = false := by
  unfold makeChoice
  dsimp only
  split
  · unfold choiceAppended
    split
    · exact restore_isPopup _ _ _
    · split
      · exact restore_isPopup _ _ _
      · unfold Desk.setState; dsimp only; cases d.chan.tip <;> rfl
      · exact restore_isPopup _ _ _
      · exact restore_isPopup _ _ _
      · rfl
  · unfold choiceHeld
    split
    · rfl
    · rw [fixedAction_state]; rfl

end Sys2Proof.Machine
end

