-- ==== Sys2Proof/Laws/Input.lean ====
section
/-! SUPPORT. The Stream Input: what offering, delivering and settling do, each said once. -/

namespace Sys2Proof.Machine

/-! ## What a record of each kind is taken as -/

theorem State.takeRecord_malformed {s : State} {r : Record} (form : Record.formOk r = false) :
    s.takeRecord r = s.raise .unknownRecord := by
  unfold State.takeRecord; rw [form]; rfl

theorem State.takeRecord_passStart (s : State) (a : FileAddr) : s.takeRecord ⟨a, .passStart⟩ = s.takePassStart := rfl

theorem State.takeRecord_passEnd (s : State) (a : FileAddr) : s.takeRecord ⟨a, .passEnd⟩ = s.takePassEnd := rfl

theorem State.takeRecord_beam {s : State} {a : FileAddr} {b : Beam} (form : Record.formOk ⟨a, .beam b⟩ = true) :
    s.takeRecord ⟨a, .beam b⟩ = s.route a (State.deliver ⟨a, .beam b⟩ (s.prepBeam a b)) := by
  unfold State.takeRecord; rw [form]; rfl

theorem State.takeRecord_slot (s : State) (a : FileAddr) (k : Slot) :
    s.takeRecord ⟨a, .slot k⟩ = s.route a (State.deliver ⟨a, .slot k⟩ (s.prepSlot k)) := rfl

theorem State.takeRecord_mark {s : State} {a : FileAddr} {m : Mark} (form : Record.formOk ⟨a, .mark m⟩ = true) :
    s.takeRecord ⟨a, .mark m⟩ = s.route a (State.deliverMark m) := by
  unfold State.takeRecord; rw [form]; rfl

/-- Every record is offered by its command. -/
theorem exec_toInstr (r : Record) (s : State) : exec r.toInstr s = .next (s.offerRecord r) := by
  obtain ⟨a, b⟩ := r
  cases b with
  | beam b => cases b <;> rfl
  | mark m => cases m <;> rfl
  | slot k => cases k <;> rfl
  | directive t w d => cases d <;> rfl
  | malformed => rfl
  | passStart => rfl
  | passEnd => rfl

/-! ## Taking a record with the input free, and offering one while it is held -/

theorem State.closeHand_of_none {s : State} (h : s.inHand = none) : s.closeHand = s := by
  unfold State.closeHand; rw [h]

/-- With no record in hand and none waiting, a record offered is taken at once (section 1.2). -/
theorem State.offerRecord_free {s : State} (r : Record) (h : s.InputFree) :
    s.offerRecord r = (s.takeRecord r).closeHand := by
  obtain ⟨h, ho⟩ := h
  have hs : { s with offered := ([] : List Record) } = s := by cases s; simp_all
  unfold State.offerRecord State.settle
  rw [State.closeHand_of_none (s := { s with offered := s.offered ++ [r] }) h]
  show ({ s with offered := ([] : List Record) }).takeOffered (s.offered ++ [r]) = _
  rw [ho, hs]
  simp only [List.nil_append, State.takeOffered, h]

/-- With no record in hand and none waiting, settling changes nothing. -/
theorem State.settle_free {s : State} (h : s.InputFree) : s.settle = s := by
  obtain ⟨h, ho⟩ := h
  have hs : { s with offered := ([] : List Record) } = s := by cases s; simp_all
  unfold State.settle
  rw [State.closeHand_of_none h, ho]
  exact hs

/-- While the input is held, closing the hand changes nothing. -/
theorem State.closeHand_held {s : State} (h : s.InputHeld) : s.closeHand = s := by
  unfold State.InputHeld at h
  unfold State.closeHand
  cases hi : s.inHand with
  | none => rfl
  | some x =>
    rw [hi] at h
    cases x <;> simp_all

/-- While the input is held, settling changes nothing. -/
theorem State.settle_held {s : State} (h : s.InputHeld) : s.settle = s := by
  have hi : ∃ x, s.inHand = some x := by
    unfold State.InputHeld at h
    cases hi : s.inHand with
    | none => rw [hi] at h; exact h.elim
    | some x => exact ⟨x, rfl⟩
  obtain ⟨x, hx⟩ := hi
  unfold State.settle
  rw [State.closeHand_held h]
  cases ho : s.offered with
  | nil => show { s with offered := ([] : List Record) } = s; rw [← ho]
  | cons r rs =>
    simp only [State.takeOffered, hx]
    rw [← ho, ← hx]

/-- With the input free, or held for a cause, settling changes nothing. -/
theorem State.settle_ok {s : State} (h : s.InputOk) : s.settle = s :=
  h.elim State.settle_free State.settle_held

/-- Whether the input is free or held is told by the record in hand, the waiting records and the reply space. -/
theorem State.InputOk.congr {s t : State} (h : s.InputOk) (hand : t.inHand = s.inHand) (offered : t.offered = s.offered)
    (room : t.replyRoom = s.replyRoom) : t.InputOk := by
  rcases h with h | h
  · exact .inl ⟨hand.trans h.hand, offered.trans h.offered⟩
  · right
    unfold State.InputHeld at h ⊢
    rw [hand, room]
    exact h

/-- While the input is held, a record offered waits (section 1.5). -/
theorem State.offerRecord_held {s : State} (r : Record) (h : s.InputHeld) :
    s.offerRecord r = { s with offered := s.offered ++ [r] } :=
  State.settle_held (s := { s with offered := s.offered ++ [r] }) h

/-- A property kept by taking a record, by disposing of the record in hand and by the list of waiting records is kept
by settling. -/
theorem State.settle_keeps {P : State → Prop} (take : ∀ s r, P s → s.inHand = none → P (s.takeRecord r))
    (close : ∀ s, P s → P s.closeHand) (wait : ∀ s o, P s → P { s with offered := o }) {s : State} (h : P s) :
    P s.settle := by
  have aux : ∀ (o : List Record) (t : State), P t → P (t.takeOffered o) := by
    intro o
    induction o with
    | nil => intro t ht; exact ht
    | cons r rs ih =>
      intro t ht
      unfold State.takeOffered
      split
      · exact wait _ _ ht
      · next hi => exact ih _ (close _ (take _ _ ht hi))
  exact aux _ _ (wait _ _ (close _ h))

/-- The same for a record offered. -/
theorem State.offerRecord_keeps {P : State → Prop} (take : ∀ s r, P s → s.inHand = none → P (s.takeRecord r))
    (close : ∀ s, P s → P s.closeHand) (wait : ∀ s o, P s → P { s with offered := o }) {s : State} (h : P s)
    (r : Record) : P (s.offerRecord r) :=
  State.settle_keeps take close wait (wait _ _ h)

/-! ## Delivery (R13 to R15) -/

/-- What each head's delivery has to forward. -/
def workOf (prep : HeadNo → List Prepared) (hs : List HeadNo) (n : HeadNo) : List Prepared :=
  if n ∈ hs then prep n else []

/-- One head's deliveries going on. -/
theorem State.pumpHead_deliver {s : State} {r : Record} {w : Vector (List Prepared) 4} (n : HeadNo)
    (h : s.inHand = some (.deliver r w)) :
    s.pumpHead n =
      { s with
        inHand := some (.deliver r (w.set n (w[n].drop s.ports[n].credit)))
        ports := s.ports.set n ((w[n].take s.ports[n].credit).foldl (HeadPort.forward (s.active.stallLimit n)) s.ports[n])
        headLinks := s.headLinks.set n (s.headLinks[n] ++ (w[n].take s.ports[n].credit).map Prepared.record) } := by
  unfold State.pumpHead
  rw [h]
  simp only [HeadPort.pump_eq]

/-- A delivery to the heads of a set: each head is forwarded what its credit allows, and the rest waits. -/
theorem State.deliver_eq (r : Record) (prep : HeadNo → List Prepared) (hs : List HeadNo) (s : State) :
    s.deliver r prep hs =
      { s with
        inHand := some (.deliver r (perHead fun n => (workOf prep hs n).drop s.ports[n].credit))
        ports := perHead fun n =>
          ((workOf prep hs n).take s.ports[n].credit).foldl (HeadPort.forward (s.active.stallLimit n)) s.ports[n]
        headLinks := perHead fun n =>
          s.headLinks[n] ++ ((workOf prep hs n).take s.ports[n].credit).map Prepared.record } := by
  unfold State.deliver
  simp only [allHeads, List.foldl_cons, List.foldl_nil]
  rw [State.pumpHead_deliver 0 rfl, State.pumpHead_deliver 1 rfl, State.pumpHead_deliver 2 rfl,
    State.pumpHead_deliver 3 rfl]
  simp only [vec_set_get, perHead_get, State.mk.injEq, Option.some.injEq, InHand.deliver.injEq, true_and, and_true]
  refine ⟨vec_ext fun n => ?_, vec_ext fun n => ?_, vec_ext fun n => ?_⟩ <;>
    fin_cases n <;> simp [workOf] <;> rfl

end Sys2Proof.Machine
end

