-- ==== Sys2Proof/Laws/Directives.lean ====
section
/-! SUPPORT. The Directive Unit: what taking a directive leaves alone, and when a directive offered is taken. -/

namespace Sys2Proof.Machine

theorem State.putDesk_inHand_none {s : State} (n : HeadNo) (d : Desk) (h : s.inHand = none) :
    (s.putDesk n d).inHand = none := by
  unfold State.putDesk; simp only [h]; split <;> rfl

theorem Result.conclude_inHand (h : DirHeader) (d : Directive) (r : Result) :
    (r.conclude h d).inHand = r.state.inHand := by
  unfold Result.conclude; repeat' split
  all_goals rfl

theorem State.toChannel_inHand_none {s : State} (ch : BitVec 8) (f : View → Desk → DirOutcome × ReplyData × Desk)
    (h : s.inHand = none) : (s.toChannel ch f).state.inHand = none := by
  unfold State.toChannel; split
  · exact h
  · exact State.putDesk_inHand_none _ _ h

/-- Taking a directive puts nothing in hand. -/
theorem State.takeDirective_inHand_none {s : State} (hd : DirHeader) (d : Directive) (h : s.inHand = none) :
    (s.takeDirective hd d).inHand = none := by
  cases d <;> simp only [State.takeDirective, Result.conclude_inHand]
  case switchBank => unfold State.switchBank; split <;> exact h
  all_goals
    first
    | exact h
    | exact State.toChannel_inHand_none _ _ h
    | rfl
    | (simp only [State.writeTable, State.readTable, State.copyBank, State.clearBank, State.cancelSwitch,
         State.setPatternFlag, State.restartHead, State.readChannel, State.readHead, State.readPass, Result.no,
         Result.ok]
       repeat' split
       all_goals first | exact h | (simp; exact h))

/-- A directive offered to a free input, its form being right and its reply's space being there, is taken at once
(R16). -/
theorem State.offerRecord_directive {s : State} (hd : DirHeader) (d : Directive) (hf : s.InputFree)
    (form : Record.formOk (hd.record d) = true) (room : willReply hd.want d = true → s.replyRoom = true) :
    s.offerRecord (hd.record d) = s.takeDirective hd d := by
  rw [State.offerRecord_free _ hf]
  have : s.takeRecord (hd.record d) = s.takeDirective hd d := by
    unfold State.takeRecord
    rw [if_pos form]
    show s.handOver ⟨hd.addr, hd.tag, hd.want⟩ d = _
    unfold State.handOver
    rw [if_neg]
    simp only [Bool.and_eq_true, Bool.not_eq_true']
    rintro ⟨h1, h2⟩
    rw [room h1] at h2
    exact absurd h2 (by decide)
  rw [this]
  exact State.closeHand_of_none (State.takeDirective_inHand_none hd d hf.hand)

/-- A directive that will reply, offered to a free input without reply space, stays in hand (R16). -/
theorem State.offerRecord_directive_waits {s : State} (hd : DirHeader) (d : Directive) (hf : s.InputFree)
    (form : Record.formOk (hd.record d) = true) (will : willReply hd.want d = true) (full : s.replyRoom = false) :
    s.offerRecord (hd.record d) = { s with inHand := some (.directive hd d) } := by
  rw [State.offerRecord_free _ hf]
  have : s.takeRecord (hd.record d) = { s with inHand := some (.directive hd d) } := by
    unfold State.takeRecord
    rw [if_pos form]
    show s.handOver ⟨hd.addr, hd.tag, hd.want⟩ d = _
    unfold State.handOver
    rw [if_pos]
    simp [will, full]
  rw [this]
  have held : State.InputHeld { s with inHand := some (.directive hd d) } := full
  exact State.closeHand_held held

theorem Result.conclude_offered (h : DirHeader) (d : Directive) (r : Result) :
    (r.conclude h d).offered = r.state.offered := by
  unfold Result.conclude; repeat' split
  all_goals rfl

theorem State.toChannel_offered (s : State) (ch : BitVec 8) (f : View → Desk → DirOutcome × ReplyData × Desk) :
    (s.toChannel ch f).state.offered = s.offered := by
  unfold State.toChannel; split <;> rfl

/-- Taking a directive leaves the waiting records as they stand. -/
theorem State.takeDirective_offered (s : State) (hd : DirHeader) (d : Directive) :
    (s.takeDirective hd d).offered = s.offered := by
  cases d <;> simp only [State.takeDirective, Result.conclude_offered]
  case switchBank => unfold State.switchBank; split <;> rfl
  all_goals
    first
    | rfl
    | exact State.toChannel_offered _ _ _
    | (simp only [State.writeTable, State.readTable, State.copyBank, State.clearBank, State.cancelSwitch,
         State.setPatternFlag, State.restartHead, State.readChannel, State.readHead, State.readPass, Result.no,
         Result.ok]
       repeat' split
       all_goals first | rfl | exact State.setStandbyBank_offered _ _)

/-- A directive in hand with nothing waiting behind it is handed over when a reply space is free (R16). -/
theorem State.settle_directive {s : State} (hd : DirHeader) (d : Directive) (hi : s.inHand = some (.directive hd d))
    (ho : s.offered = []) (room : s.replyRoom = true) :
    s.settle = { s with inHand := none }.takeDirective hd d := by
  have hc : s.closeHand = { s with inHand := none }.takeDirective hd d := by
    unfold State.closeHand; rw [hi]; simp only [room, if_true]
  have h2 : ({ s with inHand := none }.takeDirective hd d).offered = [] := (State.takeDirective_offered _ _ _).trans ho
  unfold State.settle
  rw [hc]
  generalize ({ s with inHand := none }.takeDirective hd d : State) = u at h2
  rw [ho]
  show { u with offered := [] } = u
  rw [← h2]

/-! ## Settling a hold that a directive ends -/

theorem State.closePass_offered (s : State) : s.closePass.offered = s.offered := by
  have desks : ∀ (f : View → Desk → Desk) (l : List HeadNo) (s : State),
      (l.foldl (fun s n => s.onDesk n f) s).offered = s.offered := by
    intro f l
    induction l with
    | nil => intro s; rfl
    | cons x xs ih => intro s; rw [List.foldl_cons, ih]; rfl
  have banks : ∀ s : State, s.switchBanks.offered = s.offered := by
    intro s
    unfold State.switchBanks
    dsimp only [State.reloadFlags]
    rw [desks, desks]
  unfold State.closePass
  dsimp only
  rw [show ∀ (s : State) p, (s.attemptSwitch p).offered = s.offered from ?_]
  · dsimp only
    rw [desks]
  · intro s p
    unfold State.attemptSwitch
    split
    · rfl
    · split
      · rfl
      · rfl
      · split
        · rfl
        · exact banks s

/-- Taking a record leaves the waiting records as they stand. -/
theorem State.takeRecord_offered (s : State) (r : Record) : (s.takeRecord r).offered = s.offered := by
  have heads : ∀ (f : State → HeadNo → State), (∀ s n, (f s n).offered = s.offered) →
      ∀ (l : List HeadNo) (s : State), (l.foldl f s).offered = s.offered := by
    intro f hf l
    induction l with
    | nil => intro s; rfl
    | cons x xs ih => intro s; rw [List.foldl_cons, ih, hf]
  have pump : ∀ (s : State) (n : HeadNo), (s.pumpHead n).offered = s.offered := by
    intro s n; unfold State.pumpHead; split <;> rfl
  have faults : ∀ (l : List FaultKind) (s : State), (s.raiseAll l).offered = s.offered := by
    intro l
    induction l with
    | nil => intro s; rfl
    | cons k l ih => intro s; exact (ih (s.raise k)).trans rfl
  have route : ∀ (s : State) a f, (∀ hs s, (f hs s : State).offered = s.offered) →
      (s.route a f).offered = s.offered := by
    intro s a f hf
    unfold State.route
    repeat' split
    all_goals first | rfl | exact hf _ _
  unfold State.takeRecord
  split
  · split
    · rfl
    · unfold State.takePassStart
      split
      · rfl
      · exact State.closePass_offered _
    · unfold State.takePassEnd
      split
      · rfl
      · exact State.closePass_offered _
    · exact route _ _ _ fun hs s => heads _ pump _ _
    · exact route _ _ _ fun hs s => heads _ pump _ _
    · exact route _ _ _ fun hs s => heads (State.markAt _) (fun s n => faults _ _) _ _
    · unfold State.handOver
      split
      · rfl
      · exact State.takeDirective_offered _ _ _
  · rfl

theorem State.closeHand_offered (s : State) : s.closeHand.offered = s.offered := by
  unfold State.closeHand
  repeat' split
  all_goals first | rfl | exact State.takeDirective_offered _ _ _

/-- Once the hand is closed, no record is in hand or the one in hand holds the input. -/
theorem State.closeHand_none_or_held (s : State) : s.closeHand.inHand = none ∨ s.closeHand.InputHeld := by
  unfold State.closeHand
  split
  · left; assumption
  · next r w h =>
    split
    · left; rfl
    · next hw => right; unfold State.InputHeld; rw [h]; simpa using hw
  · next hd d h =>
    split
    · left; exact State.takeDirective_inHand_none _ _ rfl
    · next hw => right; unfold State.InputHeld; rw [h]; simpa using hw

theorem Result.conclude_withOffered (h : DirHeader) (d : Directive) (r : Result) (o : List Record) :
    ({ r with state := { r.state with offered := o } } : Result).conclude h d = { r.conclude h d with offered := o } := by
  unfold Result.conclude
  dsimp only
  split
  · rfl
  · split <;> rfl

/-- Taking a directive does not read the waiting records. -/
theorem State.takeDirective_withOffered (s : State) (o : List Record) (h : DirHeader) (d : Directive) :
    State.takeDirective { s with offered := o } h d = { s.takeDirective h d with offered := o } := by
  have conclude : ∀ r q : Result, r = { q with state := { q.state with offered := o } } →
      r.conclude h d = { q.conclude h d with offered := o } := by
    rintro r q rfl
    exact Result.conclude_withOffered h d q o
  have chan : ∀ (s : State) (ch : BitVec 8) f, State.toChannel { s with offered := o } ch f =
      { s.toChannel ch f with state := { (s.toChannel ch f).state with offered := o } } := by
    intro s ch f
    unfold State.toChannel
    cases headNo? ch <;> rfl
  obtain ⟨f1, f2, f3, f4, f5, f6, f7, f8, f9, f10, f11, sel, f13, psw, f15, f16, f17, f18, f19, f20, f21, f22, f23, f24⟩ := s
  cases d <;> simp only [State.takeDirective]
  case switchBank => unfold State.switchBank; cases psw <;> rfl
  all_goals apply conclude
  all_goals first
    | rfl
    | exact chan ⟨f1, f2, f3, f4, f5, f6, f7, f8, f9, f10, f11, sel, f13, psw, f15, f16, f17, f18, f19, f20, f21, f22,
        f23, f24⟩ _ _
    | skip
  case writeTable =>
    unfold State.writeTable Result.no Result.ok
    cases TableId.ofCode _ <;> dsimp only
    repeat' split
    all_goals first | rfl | (cases sel <;> rfl)
  case readTable =>
    unfold State.readTable Result.no
    cases TableId.ofCode _ <;> dsimp only
    repeat' split
    all_goals rfl
  case copyBank => unfold State.copyBank Result.no Result.ok; dsimp only; split <;> rfl
  case clearBank =>
    unfold State.clearBank Result.no Result.ok
    dsimp only
    split
    · rfl
    · cases sel <;> rfl
  case cancelSwitch => unfold State.cancelSwitch Result.no Result.ok; dsimp only; cases psw <;> rfl
  case setPatternFlag => unfold State.setPatternFlag Result.no Result.ok; dsimp only; split <;> rfl
  case restartHead => unfold State.restartHead Result.no Result.ok; cases headNo? _ <;> dsimp only; split <;> rfl
  case readChannel => unfold State.readChannel Result.no; cases headNo? _ <;> rfl
  case readHead => unfold State.readHead Result.no; cases headNo? _ <;> rfl
  case readPass => unfold State.readPass Result.no; split <;> rfl

end Sys2Proof.Machine
end

