-- ==== Sys2Proof/Laws/Link.lean ====
section
/-! SUPPORT. The return link's arbiter: the slot its search finds, what a selection takes, and that a selection goes on
while the input is held, each said once. -/

namespace Sys2Proof.Machine

/-- The search finds the first slot round the ring from the pointer that passes a test (R189). -/
theorem searchOrder_find?_eq_some (p : Fin 8 → Bool) (ptr i : Fin 8) :
    (searchOrder ptr).find? p = some i ↔
      ∃ k : Nat, k < 8 ∧ i.val = (ptr.val + k) % 8 ∧ p i = true ∧
        ∀ j : Fin 8, ∀ m : Nat, m < k → j.val = (ptr.val + m) % 8 → ¬ p j = true := by
  have place : ∀ ptr m : Fin 8, ((searchOrder ptr)[m]'m.2).val = (ptr.val + m.val) % 8 := by decide
  have slot : ∀ (m : Nat) (hm : m < (searchOrder ptr).length), ((searchOrder ptr)[m]'hm).val = (ptr.val + m) % 8 :=
    fun m hm => place ptr ⟨m, hm⟩
  rw [List.find?_eq_some_iff_getElem]
  constructor
  · rintro ⟨hp, k, hk, he, hn⟩
    refine ⟨k, hk, by rw [← he, slot], hp, fun j m hm hj => ?_⟩
    have hm' : m < (searchOrder ptr).length := Nat.lt_trans hm hk
    have : j = (searchOrder ptr)[m]'hm' := Fin.ext (by rw [hj, slot])
    rw [this]
    simpa using hn m hm
  · rintro ⟨k, hk, hi, hp, hn⟩
    refine ⟨hp, k, hk, Fin.ext ((slot k hk).trans hi.symm), fun m hm => ?_⟩
    exact congrArg (!·) (Bool.eq_false_iff.2 (hn _ m hm (slot m (Nat.lt_trans hm hk))))

/-- A selection that can be made takes the source of the slot found (R189). -/
theorem State.select_eq {s : State} {i : Fin 8} {src : Source} (link : s.link = .free) (credit : 1 ≤ s.credit)
    (found : s.findSlot = some i) (source : s.slotSource i = some src) : s.select = s.selectSource i src := by
  unfold State.select
  rw [link, found]
  simp only [source]
  rw [if_neg (by omega)]

/-- A selection that cannot be made changes nothing (R189). -/
theorem State.select_none {s : State} (h : ¬ (s.link = .free ∧ 1 ≤ s.credit ∧ ∃ i, s.findSlot = some i)) :
    s.select = s := by
  unfold State.select
  split
  · next i hl hf =>
    rw [if_pos]
    have : ¬ 1 ≤ s.credit := fun hc => h ⟨hl, hc, i, hf⟩
    omega
  · rfl

/-- A place freed in its queue keeps a channel in POPUP or out of it (R82, R140). -/
theorem placeFreed_isPopup (v : View) (d : Desk) :
    (placeFreed v d).chan.state.isPopup = true ∨ d.chan.state.isPopup = false := by
  unfold placeFreed
  split
  · next h => right; rw [h]; rfl
  · next h => right; rw [h]; rfl
  · next h =>
    left
    repeat' split
    all_goals first | rfl | (rw [h]; rfl)
  all_goals next h => right; rw [h]; rfl

/-- A selection of a channel's queue (R182, R189): the oldest report leaves it, and the channel takes the place; the
record in hand stays as it is. -/
theorem State.selectSource_chan {s : State} (i : Fin 8) {n : HeadNo} {r : ChannelReport} {rest : List ChannelReport}
    (h : s.queues[n] = r :: rest) :
    let u : State := { s with queues := s.queues.set n rest }.send i (.chan n r)
    let d := placeFreed (u.view n) (u.desk n)
    s.selectSource i (.chan n) = { u with chans := u.chans.set n d.chan, queues := u.queues.set n d.queue, flags := d.flags } := by
  intro u d
  unfold State.selectSource
  simp only [h]
  refine State.onDesk_within rfl ?_
  rcases placeFreed_isPopup (u.view n) (u.desk n) with hp | hp
  · exact .inr (.inl hp)
  · exact .inl hp

/-- A channel's queue or STATUS selected while the input is held leaves it held, and free leaves it free (section
1.5). -/
theorem State.selectSource_inputOk {s : State} (i : Fin 8) {src : Source} (h : s.InputOk) (ne : src ≠ .reply) :
    (s.selectSource i src).InputOk := by
  cases src with
  | chan n =>
    cases hq : s.queues[n] with
    | nil => unfold State.selectSource; simp only [hq]; exact h
    | cons r rest => rw [State.selectSource_chan i hq]; exact h.congr rfl rfl rfl
  | reply => exact absurd rfl ne
  | status => exact h.congr rfl rfl rfl

end Sys2Proof.Machine
end

