-- ==== Sys2Proof/Laws/PassEnd.lean ====
section
/-! SUPPORT. The pass-end notice at the four channels: no channel's work reads the live flags, so each channel and its
queue end as if the notice had reached it alone; and the end of a pass as one update. -/

namespace Sys2Proof.Machine

/-- Two desks with the same channel and the same queue. -/
def Desk.Same (d e : Desk) : Prop := d.chan = e.chan ∧ d.queue = e.queue

theorem Desk.same_mk (c : PenChannel) (q : List ChannelReport) (f g : Vector Bool 16) : Desk.Same ⟨c, q, f⟩ ⟨c, q, g⟩ :=
  ⟨rfl, rfl⟩

theorem Desk.Same.setState {d e : Desk} (h : d.Same e) (st : ChanState) : (d.setState st).Same (e.setState st) := by
  obtain ⟨h1, h2⟩ := h
  exact ⟨by unfold Desk.setState; rw [h1], h2⟩

theorem Desk.Same.offer {d e : Desk} (h : d.Same e) (r : ChannelReport) (succ : Successor) :
    (d.offer r succ).Same (e.offer r succ) := by
  obtain ⟨c, q, f⟩ := d
  obtain ⟨c', q', g⟩ := e
  obtain ⟨rfl, rfl⟩ : c = c' ∧ q = q' := h
  unfold Desk.offer Desk.room
  dsimp only
  split <;> exact Desk.same_mk _ _ _ _

theorem fixedAction_same {d e : Desk} (h : d.Same e) (b : Bank) (i : ItemEntry) :
    (fixedAction b d i).Same (fixedAction b e i) := by
  obtain ⟨c, q, f⟩ := d
  obtain ⟨c', q', g⟩ := e
  obtain ⟨rfl, rfl⟩ : c = c' ∧ q = q' := h
  unfold fixedAction
  split <;> exact Desk.same_mk _ _ _ _

theorem resolvePick_same {d e : Desk} (h : d.Same e) (v : View) (k : Resolution) (pass : PassNo) (w : Candidate)
    (path : Path) (close crowded : Bool) :
    (resolvePick v k pass w path close crowded d).Same (resolvePick v k pass w path close crowded e) := by
  obtain ⟨c, q, f⟩ := d
  obtain ⟨c', q', g⟩ := e
  obtain ⟨rfl, rfl⟩ : c = c' ∧ q = q' := h
  unfold resolvePick
  dsimp only
  split <;> exact Desk.Same.offer (Desk.same_mk _ _ _ _) _ _

theorem resolveMenu_same {d e : Desk} (h : d.Same e) (v : View) (k : Resolution) (pass : PassNo) (w : Candidate)
    (m : MenuId) (it : ItemNo) (close crowded : Bool) :
    (resolveMenu v k pass w m it close crowded d).Same (resolveMenu v k pass w m it close crowded e) := by
  unfold resolveMenu
  dsimp only
  split
  · exact fixedAction_same (h.offer _ _) _ _
  · exact h.offer _ _

theorem resolve_same {d e : Desk} (h : d.Same e) (v : View) (k : Resolution) (pass : PassNo) :
    (resolve v k pass d).Same (resolve v k pass e) := by
  obtain ⟨c, q, f⟩ := d
  obtain ⟨c', q', g⟩ := e
  obtain ⟨rfl, rfl⟩ : c = c' ∧ q = q' := h
  unfold resolve
  dsimp only
  cases c.winner v.bank with
  | none => exact Desk.same_mk _ _ _ _
  | some w =>
    dsimp only
    split
    · exact resolvePick_same (Desk.same_mk _ _ _ _) ..
    · exact resolveMenu_same (Desk.same_mk _ _ _ _) ..

theorem gatherPassEnd_same {d e : Desk} (h : d.Same e) (v : View) (pass : PassNo) :
    (gatherPassEnd v pass d).Same (gatherPassEnd v pass e) := by
  obtain ⟨c, q, f⟩ := d
  obtain ⟨c', q', g⟩ := e
  obtain ⟨rfl, rfl⟩ : c = c' ∧ q = q' := h
  unfold gatherPassEnd
  dsimp only
  split
  · split
    · exact resolve_same (Desk.same_mk _ _ _ _) ..
    · exact Desk.same_mk _ _ _ _
  · exact Desk.same_mk _ _ _ _

theorem tipUpOffered_same {d e : Desk} (h : d.Same e) (v : View) : (tipUpOffered v d).Same (tipUpOffered v e) := by
  obtain ⟨c, q, f⟩ := d
  obtain ⟨c', q', g⟩ := e
  obtain ⟨rfl, rfl⟩ : c = c' ∧ q = q' := h
  unfold tipUpOffered gatherTipUp
  dsimp only
  split
  · exact Desk.same_mk _ _ _ _
  · split
    · exact resolve_same (Desk.same_mk _ _ _ _) ..
    · exact Desk.Same.offer (Desk.same_mk _ _ _ _) _ _
  · exact Desk.same_mk _ _ _ _
  · exact Desk.Same.offer (Desk.same_mk _ _ _ _) _ _
  · exact Desk.same_mk _ _ _ _
  all_goals exact Desk.same_mk _ _ _ _

theorem tipDownOffered_same {d e : Desk} (h : d.Same e) (v : View) :
    (tipDownOffered v d).Same (tipDownOffered v e) := by
  obtain ⟨c, q, f⟩ := d
  obtain ⟨c', q', g⟩ := e
  obtain ⟨rfl, rfl⟩ : c = c' ∧ q = q' := h
  unfold tipDownOffered
  dsimp only
  split <;> exact Desk.same_mk _ _ _ _

theorem restore_same {d e : Desk} (h : d.Same e) (v : View) (p : Popup) : (restore v p d).Same (restore v p e) := by
  obtain ⟨c, q, f⟩ := d
  obtain ⟨c', q', g⟩ := e
  obtain ⟨rfl, rfl⟩ : c = c' ∧ q = q' := h
  unfold restore reconcileTip
  dsimp only
  have h1 : ∀ {x y : Desk}, x.Same y →
      (if p.slot.note = true then tipUpOffered v x else x).Same (if p.slot.note = true then tipUpOffered v y else y) := by
    intro x y hxy
    split
    · exact tipUpOffered_same hxy v
    · exact hxy
  split
  · exact tipDownOffered_same (h1 (Desk.same_mk _ _ _ _)) v
  · exact h1 (Desk.same_mk _ _ _ _)

theorem choiceAppended_same {d e : Desk} (h : d.Same e) (v : View) (p : Popup) (good : Option ItemEntry) :
    (choiceAppended v p d good).Same (choiceAppended v p e good) := by
  obtain ⟨c, q, f⟩ := d
  obtain ⟨c', q', g⟩ := e
  obtain ⟨rfl, rfl⟩ : c = c' ∧ q = q' := h
  cases good with
  | none => exact restore_same (Desk.same_mk _ _ _ _) v p
  | some i =>
    unfold choiceAppended
    dsimp only
    split
    · exact restore_same (Desk.same_mk _ _ _ _) v p
    · exact Desk.same_mk _ _ _ _
    · exact restore_same (Desk.same_mk _ _ _ _) v p
    · exact restore_same (Desk.same_mk _ _ _ _) v p
    · exact Desk.same_mk _ _ _ _

theorem makeChoice_same {d e : Desk} (h : d.Same e) (v : View) (pass : PassNo) (p : Popup) :
    (makeChoice v pass p d).Same (makeChoice v pass p e) := by
  obtain ⟨c, q, f⟩ := d
  obtain ⟨c', q', g⟩ := e
  obtain ⟨rfl, rfl⟩ : c = c' ∧ q = q' := h
  unfold makeChoice Desk.room
  dsimp only
  split
  · exact choiceAppended_same (Desk.same_mk _ _ _ _) ..
  · unfold choiceHeld
    cases v.bank.popupItem? p.menu p.chosen with
    | none => exact Desk.same_mk _ _ _ _
    | some i => exact fixedAction_same (Desk.same_mk _ _ _ _) ..

theorem popupPassEnd_same {d e : Desk} (h : d.Same e) (v : View) (pass : PassNo) (p : Popup) :
    (popupPassEnd v pass p d).Same (popupPassEnd v pass p e) := by
  unfold popupPassEnd
  dsimp only
  split
  · split
    · exact makeChoice_same (h.setState _) ..
    · exact h.setState _
  · exact h

theorem trackPassEnd_same {d e : Desk} (h : d.Same e) (v : View) (pass : PassNo) (t : Tracking) :
    (trackPassEnd v pass t d).Same (trackPassEnd v pass t e) := by
  obtain ⟨c, q, f⟩ := d
  obtain ⟨c', q', g⟩ := e
  obtain ⟨rfl, rfl⟩ : c = c' ∧ q = q' := h
  unfold trackPassEnd
  dsimp only
  split
  · split
    · exact Desk.Same.offer (Desk.same_mk _ _ _ _) _ _
    · exact Desk.same_mk _ _ _ _
  · exact Desk.same_mk _ _ _ _

/-- What the pass-end notice makes of a channel and its queue does not depend on the live flags. -/
theorem passEndNotice_same {d e : Desk} (h : d.Same e) (v : View) (pass : PassNo) :
    (passEndNotice pass v d).Same (passEndNotice pass v e) := by
  have hs : d.chan.state = e.chan.state := by rw [h.1]
  unfold passEndNotice
  rw [← hs]
  cases d.chan.state with
  | gather => exact gatherPassEnd_same h v pass
  | popup p => exact popupPassEnd_same h v pass p
  | track t => exact trackPassEnd_same h v pass t
  | off => exact h
  | idle => exact h
  | held => exact h
  | wait r q => exact h

/-- The notice at one channel, with no record in hand. -/
theorem State.onDesk_passEnd {s : State} (n : HeadNo) (pass : PassNo) (h : s.inHand = none) :
    s.onDesk n (passEndNotice pass) =
      { s with
        chans := s.chans.set n (passEndNotice pass (s.view n) (s.desk n)).chan
        queues := s.queues.set n (passEndNotice pass (s.view n) (s.desk n)).queue
        flags := (passEndNotice pass (s.view n) (s.desk n)).flags } :=
  State.onDesk_within rfl (.inr (.inr h))

/-- The notice at the channels of a list, with no record in hand. -/
theorem State.notices_list (pass : PassNo) (hs : List HeadNo) : ∀ s : State, s.inHand = none → hs.Nodup →
    ∃ (cs : Vector PenChannel 4) (qs : Vector (List ChannelReport) 4),
      hs.foldl (fun s n => s.onDesk n (passEndNotice pass)) s =
        { s with
          chans := cs, queues := qs
          flags := hs.foldl (fun f n => (passEndNotice pass (s.view n) { s.desk n with flags := f }).flags) s.flags } ∧
      (∀ n : HeadNo, n ∈ hs → cs[n] = (passEndNotice pass (s.view n) (s.desk n)).chan ∧
        qs[n] = (passEndNotice pass (s.view n) (s.desk n)).queue) ∧
      (∀ n : HeadNo, n ∉ hs → cs[n] = s.chans[n] ∧ qs[n] = s.queues[n]) := by
  induction hs with
  | nil => intro s _ _; exact ⟨s.chans, s.queues, rfl, fun _ h => (by cases h), fun _ _ => ⟨rfl, rfl⟩⟩
  | cons x xs ih =>
    intro s h nd
    have nd' := List.nodup_cons.1 nd
    have ne : ∀ n : HeadNo, n ∈ xs → x ≠ n := by rintro n hn rfl; exact nd'.1 hn
    let d := passEndNotice pass (s.view x) (s.desk x)
    let u : State :=
      { s with chans := s.chans.set x d.chan, queues := s.queues.set x d.queue, flags := d.flags }
    have hu : s.onDesk x (passEndNotice pass) = u := State.onDesk_passEnd x pass h
    have chan : ∀ n : HeadNo, x ≠ n → u.chans[n] = s.chans[n] := fun n hn => vec_set_ne _ _ hn
    have queue : ∀ n : HeadNo, x ≠ n → u.queues[n] = s.queues[n] := fun n hn => vec_set_ne _ _ hn
    have desk : ∀ n : HeadNo, x ≠ n → u.desk n = { s.desk n with flags := d.flags } := by
      intro n hn
      unfold State.desk
      rw [chan n hn, queue n hn]
    obtain ⟨cs, qs, h1, h2, h3⟩ := ih u h nd'.2
    refine ⟨cs, qs, ?_, ?_, ?_⟩
    · rw [List.foldl_cons, hu, h1]
      have key : ∀ (l : List HeadNo), (∀ n ∈ l, x ≠ n) → ∀ f : Vector Bool 16,
          l.foldl (fun f n => (passEndNotice pass (u.view n) { u.desk n with flags := f }).flags) f =
            l.foldl (fun f n => (passEndNotice pass (s.view n) { s.desk n with flags := f }).flags) f := by
        intro l
        induction l with
        | nil => intro _ f; rfl
        | cons y ys ihl =>
          intro hy f
          rw [List.foldl_cons, List.foldl_cons, desk y (hy y (by simp))]
          exact ihl (fun n hn => hy n (List.mem_cons_of_mem _ hn)) _
      rw [key xs ne]
      rfl
    · intro n hn
      rcases List.mem_cons.1 hn with rfl | hn
      · obtain ⟨h4, h5⟩ := h3 n nd'.1
        exact ⟨h4.trans (vec_set_self _ _ _), h5.trans (vec_set_self _ _ _)⟩
      · obtain ⟨h4, h5⟩ := h2 n hn
        have blind := passEndNotice_same (d := { s.desk n with flags := d.flags }) (e := s.desk n) ⟨rfl, rfl⟩
          (s.view n) pass
        rw [desk n (ne n hn)] at h4 h5
        exact ⟨h4.trans blind.1, h5.trans blind.2⟩
    · intro n hn
      have hn' := not_or.1 (fun h => hn (List.mem_cons.2 h))
      obtain ⟨h4, h5⟩ := h3 n hn'.2
      exact ⟨h4.trans (chan n (Ne.symm hn'.1)), h5.trans (queue n (Ne.symm hn'.1))⟩

/-- The notice at the four channels, with no record in hand: each channel and queue as if the notice had reached it
alone, the flags after the four in turn. -/
theorem State.notices_eq {s : State} (pass : PassNo) (h : s.inHand = none) :
    allHeads.foldl (fun s n => s.onDesk n (passEndNotice pass)) s =
      { s with
        chans := perHead fun n => (passEndNotice pass (s.view n) (s.desk n)).chan
        queues := perHead fun n => (passEndNotice pass (s.view n) (s.desk n)).queue
        flags := allHeads.foldl (fun f n => (passEndNotice pass (s.view n) { s.desk n with flags := f }).flags)
          s.flags } := by
  obtain ⟨cs, qs, h1, h2, _⟩ := State.notices_list pass allHeads s h allHeads_nodup
  have hc : cs = perHead fun n => (passEndNotice pass (s.view n) (s.desk n)).chan :=
    vec_ext fun n => by rw [perHead_get]; exact (h2 n (mem_allHeads n)).1
  have hq : qs = perHead fun n => (passEndNotice pass (s.view n) (s.desk n)).queue :=
    vec_ext fun n => by rw [perHead_get]; exact (h2 n (mem_allHeads n)).2
  rw [h1, hc, hq]

/-- The end of a pass with no record in hand: the notices, the rise of the counter, and the attempt of a pending
switch. -/
theorem State.closePass_eq {s : State} (h : s.inHand = none) :
    s.closePass =
      State.attemptSwitch
        { s with
          passState := .closed
          passCount := s.passCount + 1
          chans := perHead fun n => (passEndNotice s.passCount (s.view n) (s.desk n)).chan
          queues := perHead fun n => (passEndNotice s.passCount (s.view n) (s.desk n)).queue
          flags := allHeads.foldl
            (fun f n => (passEndNotice s.passCount (s.view n) { s.desk n with flags := f }).flags) s.flags }
        s.passCount := by
  unfold State.closePass
  dsimp only
  rw [State.notices_eq (s := { s with passState := .closed }) s.passCount h]
  rfl

/-! ## The steps of a bank switch at the four channels (R98, R124) -/

theorem switchRecheck_same {d e : Desk} (h : d.Same e) (v : View) : (switchRecheck v d).Same (switchRecheck v e) := by
  obtain ⟨c, q, f⟩ := d
  obtain ⟨c', q', g⟩ := e
  obtain ⟨rfl, rfl⟩ : c = c' ∧ q = q' := h
  unfold switchRecheck
  dsimp only
  split <;> exact Desk.same_mk _ _ _ _

theorem popupSwitch_same {d e : Desk} (h : d.Same e) (v : View) : (popupSwitch v d).Same (popupSwitch v e) := by
  obtain ⟨c, q, f⟩ := d
  obtain ⟨c', q', g⟩ := e
  obtain ⟨rfl, rfl⟩ : c = c' ∧ q = q' := h
  unfold popupSwitch
  dsimp only
  split
  · split
    · exact Desk.same_mk _ _ _ _
    · exact restore_same (Desk.same_mk _ _ _ _) _ _
  · exact Desk.same_mk _ _ _ _

/-- A re-check keeps every entry but a PICK entry whose sample path the set refuses (R97). -/
theorem recheckTable_get (b : Bank) (set : BitVec 2) (table : Vector (Option Candidate) 4) (i : Fin 4) :
    (recheckTable b set table)[i] =
      table[i].filter fun c => match c.ident with | .pick _ => b.passes set (c.sample.getD []) | .menu _ _ => true := by
  have get : ∀ f : Option Candidate → Option Candidate, (table.map f)[i] = f table[i] := by intro f; simp
  exact get _

/-- What does not read the flags reaches each of the heads of a list, with no record in hand, as if it had reached that
head alone. -/
theorem State.onDesk_list {f : View → Desk → Desk} (blind : ∀ v (d e : Desk), d.Same e → (f v d).Same (f v e))
    (hs : List HeadNo) : ∀ s : State, s.inHand = none → hs.Nodup →
    ∃ (cs : Vector PenChannel 4) (qs : Vector (List ChannelReport) 4) (fl : Vector Bool 16),
      hs.foldl (fun s n => s.onDesk n f) s = { s with chans := cs, queues := qs, flags := fl } ∧
      (∀ n : HeadNo, n ∈ hs → cs[n] = (f (s.view n) (s.desk n)).chan ∧ qs[n] = (f (s.view n) (s.desk n)).queue) ∧
      (∀ n : HeadNo, n ∉ hs → cs[n] = s.chans[n] ∧ qs[n] = s.queues[n]) := by
  induction hs with
  | nil => intro s _ _; exact ⟨s.chans, s.queues, s.flags, rfl, fun _ h => (by cases h), fun _ _ => ⟨rfl, rfl⟩⟩
  | cons x xs ih =>
    intro s h nd
    have nd' := List.nodup_cons.1 nd
    let d := f (s.view x) (s.desk x)
    let u : State := { s with chans := s.chans.set x d.chan, queues := s.queues.set x d.queue, flags := d.flags }
    obtain ⟨cs, qs, fl, h1, h2, h3⟩ := ih u h nd'.2
    have other : ∀ n : HeadNo, n ≠ x → u.chans[n] = s.chans[n] ∧ u.queues[n] = s.queues[n] :=
      fun n hn => ⟨vec_set_ne _ _ (Ne.symm hn), vec_set_ne _ _ (Ne.symm hn)⟩
    refine ⟨cs, qs, fl, ?_, fun n hn => ?_, fun n hn => ?_⟩
    · rw [List.foldl_cons, State.onDesk_within rfl (.inr (.inr h))]
      exact h1
    · rcases List.mem_cons.1 hn with rfl | hn
      · obtain ⟨h4, h5⟩ := h3 n nd'.1
        exact ⟨h4.trans (vec_set_self _ _ _), h5.trans (vec_set_self _ _ _)⟩
      · have ne : n ≠ x := fun e => nd'.1 (e ▸ hn)
        obtain ⟨h4, h5⟩ := h2 n hn
        have same := blind (s.view n) (u.desk n) (s.desk n) (other n ne)
        exact ⟨h4.trans same.1, h5.trans same.2⟩
    · have hn' := not_or.1 (fun h => hn (List.mem_cons.2 h))
      obtain ⟨h4, h5⟩ := h3 n hn'.2
      exact ⟨h4.trans (other n hn'.1).1, h5.trans (other n hn'.1).2⟩

end Sys2Proof.Machine
end

