-- ==== Sys2Proof/Laws/PerInstr.lean ====
section
/-! SUPPORT. For every command: which record it offers to the Stream Input, that no other record is offered by it, and
that the two form checks agree. -/

namespace Sys2Proof.Laws

/-- The record a command offers to the Stream Input; none for an event. -/
def recordOf : Instr → Option Record
  | .malformedRecord addr => some ⟨addr, .malformed⟩
  | .passStart addr => some ⟨addr, .passStart⟩
  | .passEnd addr => some ⟨addr, .passEnd⟩
  | .move addr p => some ⟨addr, .beam (.move p)⟩
  | .draw addr p i => some ⟨addr, .beam (.draw p i)⟩
  | .text addr i chars => some ⟨addr, .beam (.text i chars)⟩
  | .name addr level value => some ⟨addr, .mark (.name level value)⟩
  | .menuOpen addr id => some ⟨addr, .mark (.menuOpen id)⟩
  | .item addr k => some ⟨addr, .mark (.item k)⟩
  | .menuClose addr => some ⟨addr, .mark .menuClose⟩
  | .crossSlot addr => some ⟨addr, .slot .cross⟩
  | .readoutSlot addr p => some ⟨addr, .slot (.readout p)⟩
  | .writeTable h bank table first count images => some (h.record (.writeTable bank table first count images))
  | .readTable h bank table first count => some (h.record (.readTable bank table first count))
  | .copyBank h => some (h.record .copyBank)
  | .clearBank h => some (h.record .clearBank)
  | .switchBank h => some (h.record .switchBank)
  | .cancelSwitch h => some (h.record .cancelSwitch)
  | .enableChannel h ch => some (h.record (.enableChannel ch))
  | .disableChannel h ch => some (h.record (.disableChannel ch))
  | .abortAttempt h ch => some (h.record (.abortAttempt ch))
  | .forceTrack h ch x y view => some (h.record (.forceTrack ch x y view))
  | .clearHighlight h ch => some (h.record (.clearHighlight ch))
  | .setPatternFlag h on pattern => some (h.record (.setPatternFlag on pattern))
  | .restartHead h head => some (h.record (.restartHead head))
  | .readStatusFaults h => some (h.record .readFaults)
  | .readStatusFaultsClear h => some (h.record .readFaultsClear)
  | .readStatusChannel h n => some (h.record (.readChannel n))
  | .readStatusHead h n => some (h.record (.readHead n))
  | .readStatusBanks h => some (h.record .readBanks)
  | .readStatusPass h item => some (h.record (.readPass item))
  | .restart h => some (h.record .restart)
  | .unknownDirective h code operands => some (h.record (.unknown code operands))
  | .powerOnReset _ | .completion _ | .stallTimerExpiry _ | .strike _ | .tipDown _ | .tipUp _ | .buttonPress _
  | .buttonRelease _ | .copyMove | .creditGrant _ | .transmissionEnd | .selection => none

namespace Offered

/-- The command offers exactly the record that `recordOf` names, and the form check of the one is that of the other
(a MALFORMED_RECORD stands for every record that has no right form). -/
def Statement (i : Instr) : Prop :=
  ∀ r : Record, (r.toInstr = i ↔ recordOf i = some r) ∧
    (recordOf i = some r → r.body ≠ .malformed → r.wellFormed = i.wellFormed)

theorem recordOf_toInstr (r : Record) : recordOf r.toInstr = some r := by
  obtain ⟨a, b⟩ := r
  cases b with
  | beam b => cases b <;> rfl
  | mark m => cases m <;> rfl
  | slot k => cases k <;> rfl
  | directive t w d => cases d <;> rfl
  | malformed => rfl
  | passStart => rfl
  | passEnd => rfl

theorem toInstr_of_recordOf {i : Instr} {r : Record} (h : recordOf i = some r) : r.toInstr = i := by
  cases i <;> cases h <;> rfl

theorem every (i : Instr) : Statement i := fun r =>
  ⟨⟨fun h => h ▸ recordOf_toInstr r, toInstr_of_recordOf⟩, fun h hm => by
    cases i <;> cases h <;> first | rfl | exact absurd rfl hm⟩

theorem powerOnReset (lines : Vector PenLines 4) : Statement (.powerOnReset lines) := every _
theorem malformedRecord (addr : FileAddr) : Statement (.malformedRecord addr) := every _
theorem passStart (addr : FileAddr) : Statement (.passStart addr) := every _
theorem passEnd (addr : FileAddr) : Statement (.passEnd addr) := every _
theorem move (addr : FileAddr) (p : Point) : Statement (.move addr p) := every _
theorem draw (addr : FileAddr) (p : Point) (i : Intensity) : Statement (.draw addr p i) := every _
theorem text (addr : FileAddr) (i : Intensity) (chars : List Char8) : Statement (.text addr i chars) := every _
theorem name (addr : FileAddr) (level : BitVec 3) (value : NameVal) : Statement (.name addr level value) := every _
theorem menuOpen (addr : FileAddr) (id : MenuId) : Statement (.menuOpen addr id) := every _
theorem item (addr : FileAddr) (k : ItemNo) : Statement (.item addr k) := every _
theorem menuClose (addr : FileAddr) : Statement (.menuClose addr) := every _
theorem crossSlot (addr : FileAddr) : Statement (.crossSlot addr) := every _
theorem readoutSlot (addr : FileAddr) (p : Point) : Statement (.readoutSlot addr p) := every _
theorem writeTable (h : DirHeader) (bank : BankId) (table : BitVec 4) (first : Word) (count : BitVec 5) (images : List Word) :
    Statement (.writeTable h bank table first count images) := every _
theorem readTable (h : DirHeader) (bank : BankId) (table : BitVec 4) (first : Word) (count : BitVec 5) :
    Statement (.readTable h bank table first count) := every _
theorem copyBank (h : DirHeader) : Statement (.copyBank h) := every _
theorem clearBank (h : DirHeader) : Statement (.clearBank h) := every _
theorem switchBank (h : DirHeader) : Statement (.switchBank h) := every _
theorem cancelSwitch (h : DirHeader) : Statement (.cancelSwitch h) := every _
theorem enableChannel (h : DirHeader) (ch : BitVec 8) : Statement (.enableChannel h ch) := every _
theorem disableChannel (h : DirHeader) (ch : BitVec 8) : Statement (.disableChannel h ch) := every _
theorem abortAttempt (h : DirHeader) (ch : BitVec 8) : Statement (.abortAttempt h ch) := every _
theorem forceTrack (h : DirHeader) (ch : BitVec 8) (x y : Word) (view : NameVal) :
    Statement (.forceTrack h ch x y view) := every _
theorem clearHighlight (h : DirHeader) (ch : BitVec 8) : Statement (.clearHighlight h ch) := every _
theorem setPatternFlag (h : DirHeader) (on : Bool) (pattern : BitVec 8) :
    Statement (.setPatternFlag h on pattern) := every _
theorem restartHead (h : DirHeader) (head : BitVec 8) : Statement (.restartHead h head) := every _
theorem readStatusFaults (h : DirHeader) : Statement (.readStatusFaults h) := every _
theorem readStatusFaultsClear (h : DirHeader) : Statement (.readStatusFaultsClear h) := every _
theorem readStatusChannel (h : DirHeader) (n : BitVec 8) : Statement (.readStatusChannel h n) := every _
theorem readStatusHead (h : DirHeader) (n : BitVec 8) : Statement (.readStatusHead h n) := every _
theorem readStatusBanks (h : DirHeader) : Statement (.readStatusBanks h) := every _
theorem readStatusPass (h : DirHeader) (item : BitVec 4) : Statement (.readStatusPass h item) := every _
theorem restart (h : DirHeader) : Statement (.restart h) := every _
theorem unknownDirective (h : DirHeader) (code : BitVec 8) (operands : List Word) :
    Statement (.unknownDirective h code operands) := every _
theorem completion (n : HeadNo) : Statement (.completion n) := every _
theorem stallTimerExpiry (n : HeadNo) : Statement (.stallTimerExpiry n) := every _
theorem strike (n : HeadNo) : Statement (.strike n) := every _
theorem tipDown (n : HeadNo) : Statement (.tipDown n) := every _
theorem tipUp (n : HeadNo) : Statement (.tipUp n) := every _
theorem buttonPress (n : HeadNo) : Statement (.buttonPress n) := every _
theorem buttonRelease (n : HeadNo) : Statement (.buttonRelease n) := every _
theorem copyMove : Statement (.copyMove) := every _
theorem creditGrant (word : Word) : Statement (.creditGrant word) := every _
theorem transmissionEnd : Statement (.transmissionEnd) := every _
theorem selection : Statement (.selection) := every _

end Offered

end Sys2Proof.Laws
end

