-- ==== Sys2Proof/Laws/Strike.lean ====
section
/-! SUPPORT. What a strike hands on to a track and to a pop-up: the level of each arm, the items hit with their weights,
and the counters they leave, each said once. -/

namespace Sys2Proof.Machine

/-- The weights of a struck set are 1 and 2 (R54). -/
theorem struckSet_weight (t : List TrailEntry) : ∀ x ∈ struckSet t, x.2 = 1 ∨ x.2 = 2 := by
  unfold struckSet
  intro x hx
  simp only [List.mem_append, List.mem_map] at hx
  rcases hx with ⟨a, _, rfl⟩ | hx
  · exact .inl rfl
  · right
    rcases h : List.find? TrailEntry.isSent t <;> simp_all

/-! ## Arms (R60, R134) -/

/-- The level an entry gives an arm: the segment's of a visible cross record of that arm, else none (R60). -/
theorem TrailEntry.armLevel_eq (e : TrailEntry) (a : Arm) :
    e.armLevel a =
      if e.visible = true ∧ e.origin = .cross a (some .outer) then .outer
      else if e.visible = true ∧ e.origin = .cross a (some .inner) then .inner
      else .none := by
  unfold TrailEntry.armLevel
  rcases e with ⟨o, k, v, sn, po, st⟩
  cases o with
  | stream a => simp
  | readout => simp
  | cross arm seg =>
    cases seg with
    | none => simp
    | some seg => cases seg <;> by_cases hv : v = true <;> by_cases ha : arm = a <;> simp [hv, ha]

/-- Raising a level by a list of entries in turn: outer when it was or some entry gives outer, none when it was and every
entry gives none. -/
theorem foldl_sup_armLevel (struck : List (TrailEntry × Nat)) (a : Arm) : ∀ l : ArmLevel,
    let new := struck.foldl (fun l x => l.sup (x.1.armLevel a)) l
    (new = .outer ↔ l = .outer ∨ ∃ x ∈ struck, x.1.armLevel a = .outer) ∧
      (new = .none ↔ l = .none ∧ ∀ x ∈ struck, x.1.armLevel a = .none) := by
  induction struck with
  | nil => intro l; simp
  | cons x xs ih =>
    intro l
    have h := ih (l.sup (x.1.armLevel a))
    simp only [List.foldl_cons, List.mem_cons, forall_eq_or_imp, exists_eq_or_imp] at h ⊢
    cases l <;> cases hx : x.1.armLevel a <;> simp [ArmLevel.sup, hx] at h ⊢ <;> exact h

/-- A level raised by the level a strike hands on is the level raised by the struck entries in turn. -/
theorem ArmLevel.sup_armOf (struck : List (TrailEntry × Nat)) (a : Arm) (l : ArmLevel) :
    l.sup (armOf struck a) = struck.foldl (fun l x => l.sup (x.1.armLevel a)) l := by
  have aux : ∀ (xs : List (TrailEntry × Nat)) (l m : ArmLevel),
      l.sup (xs.foldl (fun l x => l.sup (x.1.armLevel a)) m) =
        xs.foldl (fun l x => l.sup (x.1.armLevel a)) (l.sup m) := by
    intro xs
    induction xs with
    | nil => intro l m; rfl
    | cons x xs ih =>
      intro l m
      rw [List.foldl_cons, List.foldl_cons, ih]
      congr 1
      cases l <;> cases m <;> cases x.1.armLevel a <;> rfl
  unfold armOf
  rw [aux]
  cases l <;> rfl

/-! ## Item hits and the tally (R59, R116) -/

/-- The item a struck entry counts for: a visible stream record whose snapshot is inside the pop-up menu, at an item that
is not disabled (R59). -/
theorem TrailEntry.tallyItem_eq_some (m : MenuId) (e : TrailEntry) (k : ItemNo) :
    e.tallyItem m = some k ↔
      e.visible = true ∧ (∃ a, e.origin = .stream a) ∧ e.snap = .menu m .popup (some ⟨k, false⟩) := by
  unfold TrailEntry.tallyItem
  rcases e with ⟨o, kk, v, sn, po, st⟩
  cases v <;> cases o <;>
    cases sn with
    | name p q => simp
    | menu id kind it => cases kind <;> rcases it with _ | ⟨k', d⟩ <;> simp <;> cases d <;> simp

/-- The weight a list of item hits gives item `k`, 0 for an item it does not list. -/
def itemWeight (hits : List (ItemNo × Nat)) (k : ItemNo) : Nat := ((hits.find? fun x => x.1 = k).map (·.2)).getD 0

/-- The items of a list after one more hit. -/
theorem mem_addItemHit (k : ItemNo) (w : Nat) (l : List (ItemNo × Nat)) (j : ItemNo) :
    (∃ x ∈ addItemHit k w l, x.1 = j) ↔ j = k ∨ ∃ x ∈ l, x.1 = j := by
  induction l with
  | nil => simp [addItemHit, eq_comm]
  | cons x xs ih =>
    unfold addItemHit
    split
    · next e => subst e; simp; tauto
    · simp only [List.exists_mem_cons_iff, ih]; tauto

/-- A hit keeps each item listed once. -/
theorem addItemHit_nodup (k : ItemNo) (w : Nat) (l : List (ItemNo × Nat)) (h : (l.map (·.1)).Nodup) :
    ((addItemHit k w l).map (·.1)).Nodup := by
  induction l with
  | nil => simp [addItemHit]
  | cons x xs ih =>
    rw [List.map_cons, List.nodup_cons] at h
    unfold addItemHit
    split
    · next e => subst e; rw [List.map_cons, List.nodup_cons]; exact h
    · next e =>
      rw [List.map_cons, List.nodup_cons]
      refine ⟨fun hm => ?_, ih h.2⟩
      obtain ⟨y, hy, ey⟩ := List.mem_map.1 hm
      rcases (mem_addItemHit k w xs x.1).1 ⟨y, hy, ey⟩ with e' | ⟨z, hz, ez⟩
      · exact e e'
      · exact h.1 (List.mem_map.2 ⟨z, hz, ez⟩)

/-- A hit raises the weight of its item to at least its own, and no other's. -/
theorem itemWeight_addItemHit (k : ItemNo) (w : Nat) (l : List (ItemNo × Nat)) (j : ItemNo) :
    itemWeight (addItemHit k w l) j = if j = k then max (itemWeight l k) w else itemWeight l j := by
  have skip : ∀ (x : ItemNo × Nat) (l : List (ItemNo × Nat)) (j : ItemNo), x.1 ≠ j →
      itemWeight (x :: l) j = itemWeight l j := by
    intro x l j h
    unfold itemWeight
    rw [List.find?_cons_of_neg (by simpa using h)]
  have hit : ∀ (x : ItemNo × Nat) (l : List (ItemNo × Nat)), itemWeight (x :: l) x.1 = x.2 := by
    intro x l; unfold itemWeight; simp
  induction l with
  | nil =>
    by_cases h : j = k
    · subst h; simp [itemWeight, addItemHit]
    · rw [if_neg h]; exact skip (k, w) [] j (Ne.symm h)
  | cons x xs ih =>
    unfold addItemHit
    split
    · next e =>
      subst e
      by_cases h : j = x.1
      · subst h; rw [if_pos rfl, hit x xs]; exact hit (x.1, max x.2 w) xs
      · rw [if_neg h, skip x xs j (Ne.symm h)]; exact skip (x.1, _) xs j (Ne.symm h)
    · next e =>
      by_cases hx : x.1 = j
      · subst hx; rw [if_neg e, hit, hit]
      · rw [skip _ _ _ hx, skip _ _ _ hx, skip _ _ _ e, ih]

/-- The item hits of a strike: each item once, exactly the items of the struck entries, each at the greatest weight an
entry gives it (R59). -/
theorem itemHits_spec (m : MenuId) (struck : List (TrailEntry × Nat)) :
    ((itemHits m struck).map (·.1)).Nodup ∧
      (∀ k : ItemNo, (∃ x ∈ itemHits m struck, x.1 = k) ↔ ∃ y ∈ struck, y.1.tallyItem m = some k) ∧
      ∀ k : ItemNo, (∀ y ∈ struck, y.1.tallyItem m = some k → y.2 ≤ itemWeight (itemHits m struck) k) ∧
        (itemWeight (itemHits m struck) k = 0 ∨
          ∃ y ∈ struck, y.1.tallyItem m = some k ∧ y.2 = itemWeight (itemHits m struck) k) := by
  let Inv (pre : List (TrailEntry × Nat)) (l : List (ItemNo × Nat)) : Prop :=
    (l.map (·.1)).Nodup ∧ (∀ k : ItemNo, (∃ x ∈ l, x.1 = k) ↔ ∃ y ∈ pre, y.1.tallyItem m = some k) ∧
      ∀ k : ItemNo, (∀ y ∈ pre, y.1.tallyItem m = some k → y.2 ≤ itemWeight l k) ∧
        (itemWeight l k = 0 ∨ ∃ y ∈ pre, y.1.tallyItem m = some k ∧ y.2 = itemWeight l k)
  have step : ∀ (pre : List (TrailEntry × Nat)) (x : TrailEntry × Nat) (l : List (ItemNo × Nat)), Inv pre l →
      Inv (pre ++ [x]) (match x.1.tallyItem m with | some k => addItemHit k x.2 l | none => l) := by
    rintro pre x l ⟨h1, h2, h3⟩
    cases hk : x.1.tallyItem m with
    | none =>
      refine ⟨h1, fun k => by rw [h2]; simp [hk], fun k => ⟨fun y hy e => ?_, ?_⟩⟩
      · simp only [List.mem_append, List.mem_singleton] at hy
        rcases hy with hy | rfl
        · exact (h3 k).1 y hy e
        · rw [hk] at e; cases e
      · rcases (h3 k).2 with h | ⟨y, hy, e⟩
        · exact .inl h
        · exact .inr ⟨y, by simp [hy], e⟩
    | some j =>
      refine ⟨addItemHit_nodup j x.2 l h1, fun k => ?_, fun k => ⟨fun y hy e => ?_, ?_⟩⟩
      · rw [mem_addItemHit, h2]
        constructor
        · rintro (rfl | ⟨a, h, e⟩)
          · exact ⟨x, by simp, hk⟩
          · exact ⟨a, by simp [h], e⟩
        · rintro ⟨a, h, e⟩
          rcases List.mem_append.1 h with h | h
          · exact .inr ⟨a, h, e⟩
          · rw [List.mem_singleton] at h
            subst h
            rw [hk] at e
            exact .inl (Option.some.inj e).symm
      · rw [itemWeight_addItemHit]
        simp only [List.mem_append, List.mem_singleton] at hy
        rcases hy with hy | rfl
        · have := (h3 k).1 y hy e
          split
          · next e' => subst e'; omega
          · exact this
        · rw [hk] at e; cases e; simp
      · rw [itemWeight_addItemHit]
        split
        · next e =>
          subst e
          by_cases hw : itemWeight l k ≤ x.2
          · exact .inr ⟨x, by simp, hk, by omega⟩
          · rcases (h3 k).2 with h | ⟨y, hy, e1, e2⟩
            · omega
            · exact .inr ⟨y, by simp [hy], e1, by omega⟩
        · rcases (h3 k).2 with h | ⟨y, hy, e⟩
          · exact .inl h
          · exact .inr ⟨y, by simp [hy], e⟩
  have all : ∀ (rest pre : List (TrailEntry × Nat)) (l : List (ItemNo × Nat)), Inv pre l →
      Inv (pre ++ rest)
        (rest.foldl (fun l x => match x.1.tallyItem m with | some k => addItemHit k x.2 l | none => l) l) := by
    intro rest
    induction rest with
    | nil => intro pre l h; simpa using h
    | cons x xs ih =>
      intro pre l h
      have := ih (pre ++ [x]) _ (step pre x l h)
      rw [List.append_assoc] at this
      exact this
  exact all struck [] [] ⟨by simp, by simp, by simp [itemWeight]⟩

/-- The counters after a list of hits that names each item once: an item hit gains its weight, saturating, and every
other counter stands (R116). -/
theorem raiseTally_get (hits : List (ItemNo × Nat)) : ∀ t : Vector Nat 32, (hits.map (·.1)).Nodup → ∀ k : Fin 32,
    (raiseTally t hits)[k] =
      if (∃ x ∈ hits, x.1.toFin = k) then min 255 (t[k] + itemWeight hits (BitVec.ofFin k)) else t[k] := by
  induction hits with
  | nil => intro t _ k; simp [raiseTally]
  | cons x xs ih =>
    intro t nd k
    rw [List.map_cons, List.nodup_cons] at nd
    show (raiseTally (t.set x.1.toFin (satAdd 255 t[x.1.toFin] x.2)) xs)[k] = _
    rw [ih _ nd.2 k]
    by_cases hx : x.1.toFin = k
    · have : ¬ ∃ y ∈ xs, y.1.toFin = k := by
        rintro ⟨y, hy, e⟩
        exact nd.1 (List.mem_map.2 ⟨y, hy, BitVec.toFin_inj.1 (e.trans hx.symm)⟩)
      rw [if_neg this, if_pos ⟨x, by simp, hx⟩]
      have e : BitVec.ofFin k = x.1 := by rw [← hx]
      unfold itemWeight
      rw [e, List.find?_cons_of_pos (by simp)]
      simp [hx, satAdd]
    · have hne : x.1.toFin.val ≠ k.val := fun e => hx (Fin.ext e)
      have g : (t.set x.1.toFin (satAdd 255 t[x.1.toFin] x.2))[k] = t[k] := by
        simp only [Fin.getElem_fin]
        exact Vector.getElem_set_ne _ _ hne
      have w : itemWeight (x :: xs) (BitVec.ofFin k) = itemWeight xs (BitVec.ofFin k) := by
        unfold itemWeight
        rw [List.find?_cons_of_neg]
        simp only [decide_eq_true_eq]
        intro e
        exact hx (by rw [e])
      have e : (∃ y ∈ x :: xs, y.1.toFin = k) ↔ ∃ y ∈ xs, y.1.toFin = k := by
        rw [List.exists_mem_cons_iff]; tauto
      rw [g, w]
      simp only [e]

/-! ## The hit list (R58) -/

/-- The identities of a hit list after one more element: a known identity keeps its place, a new one comes last. -/
theorem addHit_idents (h : Hit) (l : List Hit) :
    (addHit h l).map (·.ident) =
      if h.ident ∈ l.map (·.ident) then l.map (·.ident) else l.map (·.ident) ++ [h.ident] := by
  induction l with
  | nil => rfl
  | cons x xs ih =>
    unfold addHit
    by_cases e : x.ident = h.ident
    · have hm : h.ident ∈ (x :: xs).map (·.ident) := by rw [← e]; simp
      rw [if_pos e, if_pos hm]
      split
      · rw [List.map_cons, List.map_cons, e]
      · rfl
    · rw [if_neg e, List.map_cons, ih]
      have : h.ident ∈ (x :: xs).map (·.ident) ↔ h.ident ∈ xs.map (·.ident) := by
        rw [List.map_cons, List.mem_cons]
        exact ⟨fun hm => hm.resolve_left (Ne.symm e), .inr⟩
      simp only [this]
      split <;> rfl

/-- The identities of a hit list stand in the order in which they first appear in the struck set: where one stands
before another, some entry yields it that no entry yielding the other precedes. -/
theorem hitList_order (v : View) (set : BitVec 2) :
    let yields (e : TrailEntry) (id : Identity) : Prop :=
      ∃ z, e.yields v.bank v.profile.d.toNat set = some z ∧ z.1 = id
    ((hitList v set).map (·.ident)).Pairwise fun x y => ∃ pre e post,
      struckSet v.port.trail = pre ++ e :: post ∧ yields e.1 x ∧ ∀ f ∈ pre, ¬ yields f.1 y := by
  intro yields
  let put (l : List Hit) (x : TrailEntry × Nat) : List Hit :=
    match x.1.yields v.bank v.profile.d.toNat set with
    | some (ident, sample, addr) => addHit ⟨ident, x.2, sample, addr, x.1.pos, v.pass⟩ l
    | none => l
  let Inv (seen : List (TrailEntry × Nat)) (ids : List Identity) : Prop :=
    (∀ f ∈ seen, ∀ id, yields f.1 id → id ∈ ids) ∧ (∀ id ∈ ids, ∃ pre e post, seen = pre ++ e :: post ∧ yields e.1 id) ∧
      ids.Pairwise fun x y => ∃ pre e post, seen = pre ++ e :: post ∧ yields e.1 x ∧ ∀ f ∈ pre, ¬ yields f.1 y
  have more : ∀ {seen : List (TrailEntry × Nat)} {w : TrailEntry × Nat} {P : List (TrailEntry × Nat) → _ → Prop},
      (∃ pre e post, seen = pre ++ e :: post ∧ P pre e) → ∃ pre e post, seen ++ [w] = pre ++ e :: post ∧ P pre e := by
    rintro seen w P ⟨pre, e, post, h, hp⟩
    exact ⟨pre, e, post ++ [w], by rw [h]; simp, hp⟩
  have step : ∀ (seen : List (TrailEntry × Nat)) (w : TrailEntry × Nat) (l : List Hit), Inv seen (l.map (·.ident)) →
      Inv (seen ++ [w]) ((put l w).map (·.ident)) := by
    rintro seen w l ⟨h1, h2, h3⟩
    cases hz : w.1.yields v.bank v.profile.d.toNat set with
    | none =>
      have : put l w = l := by simp only [put, hz]
      rw [this]
      refine ⟨fun f hf id hy => ?_, fun id hid => more (h2 id hid), h3.imp fun h => more h⟩
      rcases List.mem_append.1 hf with hf | hf
      · exact h1 f hf id hy
      · rw [List.mem_singleton] at hf
        subst hf
        obtain ⟨z, e, _⟩ := hy
        rw [hz] at e
        cases e
    | some z =>
      have : (put l w).map (·.ident) = if z.1 ∈ l.map (·.ident) then l.map (·.ident) else l.map (·.ident) ++ [z.1] := by
        simp only [put, hz]
        exact addHit_idents _ l
      rw [this]
      have here : ∀ id, yields w.1 id → id = z.1 := by
        rintro id ⟨z', e, rfl⟩
        rw [hz] at e
        cases e
        rfl
      split
      · next hm =>
        refine ⟨fun f hf id hy => ?_, fun id hid => more (h2 id hid), h3.imp fun h => more h⟩
        rcases List.mem_append.1 hf with hf | hf
        · exact h1 f hf id hy
        · rw [List.mem_singleton] at hf
          subst hf
          rw [here id hy]
          exact hm
      · next hm =>
        refine ⟨fun f hf id hy => ?_, fun id hid => ?_, ?_⟩
        · rcases List.mem_append.1 hf with hf | hf
          · exact List.mem_append_left _ (h1 f hf id hy)
          · rw [List.mem_singleton] at hf
            subst hf
            rw [here id hy]
            simp
        · rcases List.mem_append.1 hid with hid | hid
          · exact more (h2 id hid)
          · rw [List.mem_singleton] at hid
            subst hid
            exact ⟨seen, w, [], rfl, z, hz, rfl⟩
        · rw [List.pairwise_append]
          refine ⟨h3.imp fun h => more h, List.pairwise_singleton _ _, fun x hx y hy => ?_⟩
          rw [List.mem_singleton] at hy
          subst hy
          obtain ⟨pre, e, post, hs, hy⟩ := h2 x hx
          refine more ⟨pre, e, post, hs, hy, fun f hf hyf => hm (h1 f ?_ _ hyf)⟩
          rw [hs]
          exact List.mem_append_left _ hf
  have all : ∀ (rest seen : List (TrailEntry × Nat)) (l : List Hit), Inv seen (l.map (·.ident)) →
      Inv (seen ++ rest) ((rest.foldl put l).map (·.ident)) := by
    intro rest
    induction rest with
    | nil => intro seen l h; simpa using h
    | cons x xs ih =>
      intro seen l h
      have := ih (seen ++ [x]) _ (step seen x l h)
      rw [List.append_assoc] at this
      exact this
  exact (all (struckSet v.port.trail) [] [] ⟨by simp, by simp, List.Pairwise.nil⟩).2.2

end Sys2Proof.Machine
end

