-- ==== Sys2Proof/Laws/Tables.lean ====
section
/-! SUPPORT. The tables: the lengths of their images, and what writing and reading ranges of entries does. -/

namespace Sys2Proof.Machine

/-- The words a table's images need, said from its code and from its name. -/
theorem imageWords_eq (c : BitVec 4) : imageWords c = (TableId.ofCode c).map TableId.words := by
  revert c; decide

/-- Writing one entry is seen only in that entry of that table. -/
theorem Bank.image_write (b : Bank) (t u : TableId) (i j : Nat) (ws : List Word) (h : ¬ (u = t ∧ j = i)) :
    (b.write t i ws).image u j = b.image u j := by
  by_cases hu : u = t
  · subst hu
    have hj : j ≠ i := fun e => h ⟨rfl, e⟩
    cases u <;> simp only [Bank.write, Bank.image, Vector.getElem?_setIfInBounds_ne hj.symm]
    by_cases hi : i = 0
    · have : j ≠ 0 := fun e => hj (by omega)
      simp [this]
    · simp [hi]
  · cases t <;> cases u <;> simp_all only [Bank.write, Bank.image, not_true_eq_false, reduceCtorEq, not_false_eq_true]
    all_goals first | rfl | (split <;> rfl)

/-- What entry `i` of a table reads after a write depends on the write's words alone. -/
theorem Bank.image_write_same (b c : Bank) (t : TableId) (i : Nat) (ws : List Word) (hi : i < t.size) :
    (b.write t i ws).image t i = (c.write t i ws).image t i := by
  cases t <;> simp_all [Bank.write, Bank.image, TableId.size]

/-- A range of entries written: the entries of the range take their images, in ascending order, and no other entry of
any table changes (R165). -/
theorem Bank.image_writeAll (b : Bank) (t u : TableId) (first n i : Nat) (ws : List Word) (h : first + n ≤ t.size) :
    (b.writeAll t first n ws).image u i =
      if u = t ∧ first ≤ i ∧ i < first + n then
        (b.write t i ((ws.drop ((i - first) * t.words)).take t.words)).image t i
      else b.image u i := by
  induction n generalizing b first ws with
  | zero =>
    rw [if_neg (by omega)]
    rfl
  | succ n ih =>
    show ((b.write t first (ws.take t.words)).writeAll t (first + 1) n (ws.drop t.words)).image u i = _
    rw [ih _ _ _ (by omega)]
    by_cases hi : u = t ∧ first + 1 ≤ i ∧ i < first + 1 + n
    · rw [if_pos hi, if_pos ⟨hi.1, by omega, by omega⟩, List.drop_drop]
      have : (i - (first + 1)) * t.words + t.words = (i - first) * t.words := by
        have : i - first = (i - (first + 1)) + 1 := by omega
        rw [this, Nat.add_mul, Nat.one_mul]
      rw [Nat.add_comm, this]
      exact Bank.image_write_same _ _ _ _ _ (by omega)
    · rw [if_neg hi]
      by_cases hf : u = t ∧ i = first
      · obtain ⟨rfl, rfl⟩ := hf
        rw [if_pos ⟨rfl, Nat.le_refl _, by omega⟩]
        simp
      · rw [Bank.image_write _ _ _ _ _ _ hf, if_neg]
        rintro ⟨h1, h2, h3⟩
        rcases Nat.lt_or_ge first i with h4 | h4
        · exact hi ⟨h1, by omega, by omega⟩
        · exact hf ⟨h1, by omega⟩

/-! ## Validation: the first failing entry of a table (R173) -/

/-- A table's validation passes when no entry fails. -/
theorem firstBad_eq_none {α : Type} (bad : Nat → α → Bool) (l : List α) (k : Nat) :
    firstBad bad k l = none ↔ ∀ i e, l[i]? = some e → bad (k + i) e = false := by
  induction l generalizing k with
  | nil => simp [firstBad]
  | cons x xs ih =>
    unfold firstBad
    by_cases h : bad k x = true
    · rw [if_pos h]
      simp only [reduceCtorEq, false_iff, not_forall]
      exact ⟨0, x, rfl, by simp [h]⟩
    · rw [if_neg h, ih]
      constructor
      · intro hh i e hi
        cases i with
        | zero => simp at hi; subst hi; simpa using h
        | succ i => rw [← hh i e (by simpa using hi)]; congr 1; omega
      · intro hh i e hi
        rw [← hh (i + 1) e (by simpa using hi)]
        congr 1
        omega

/-- The entry a table's validation names fails, and none before it does. -/
theorem firstBad_eq_some {α : Type} {bad : Nat → α → Bool} {l : List α} {k j : Nat} (h : firstBad bad k l = some j) :
    ∃ i e, j = k + i ∧ l[i]? = some e ∧ bad j e = true ∧
      ∀ i' e', i' < i → l[i']? = some e' → bad (k + i') e' = false := by
  induction l generalizing k with
  | nil => simp [firstBad] at h
  | cons x xs ih =>
    unfold firstBad at h
    by_cases hb : bad k x = true
    · rw [if_pos hb] at h
      cases h
      exact ⟨0, x, rfl, rfl, hb, fun i' _ hi => by omega⟩
    · rw [if_neg hb] at h
      obtain ⟨i, e, h1, h2, h3, h4⟩ := ih h
      refine ⟨i + 1, e, by omega, by simpa using h2, h3, fun i' e' hi he => ?_⟩
      cases i' with
      | zero => simp at he; subst he; simpa using hb
      | succ i' => rw [← h4 i' e' (by omega) (by simpa using he)]; congr 1; omega

end Sys2Proof.Machine
end

