-- ==== Sys2Proof/Laws/Trackers.lean ====
section
/-! SUPPORT. The Context Trackers: what a mark does to one tracker, and what its delivery does to the trackers of a
destination set and to the faults, each said once. -/

namespace Sys2Proof.Machine

/-! ## NAME (R21, R22) -/

/-- A NAME within the depth (R21). -/
theorem Tracker.name_within (t : Tracker) (l : Nat) (v : NameVal) (h : l ≤ t.stack.length + 1) :
    t.name l v =
      ({ t with
         stack := t.stack.take (l - 1) ++ [.value v]
         poisoned := if l = 1 then false else t.poisoned }, []) := by
  have hd : l ≤ t.depth + 1 := h
  have hz : l - 1 - t.depth = 0 := by unfold Tracker.depth; omega
  unfold Tracker.name
  dsimp only
  rw [if_pos hd, hz]
  by_cases hl : l = 1 <;> simp [hl]

/-- A NAME that skips levels (R22). -/
theorem Tracker.name_gap (t : Tracker) (l : Nat) (v : NameVal) (h : t.stack.length + 1 < l) :
    t.name l v =
      ({ t with
         stack := t.stack ++ List.replicate (l - 1 - t.stack.length) .unknown ++ [.value v]
         poisoned := true }, [.nameGap]) := by
  have hd : ¬ l ≤ t.depth + 1 := Nat.not_le.2 h
  unfold Tracker.name
  dsimp only
  rw [if_neg hd, List.take_of_length_le (by omega)]
  rfl

/-- A MENU-CLOSE leaves the tracker outside every region, and raises MENU-FORM where it was outside before (R28). -/
theorem Tracker.menuClose_eq (t : Tracker) :
    t.menuClose = ({ t with region := .outside }, if t.region = .outside then [.menuForm] else []) := by
  obtain ⟨st, p, r⟩ := t
  cases r <;> simp [Tracker.menuClose]

/-! ## The delivery of a mark (R13, R19) -/

/-- A delivery names a head once. -/
theorem State.destinations_nodup (s : State) (a : FileAddr) : (s.destinations a).Nodup := by
  unfold State.destinations Bank.covering
  apply List.Nodup.filter
  split
  · cases s.active.global.defaultHead? <;> simp
  · exact allHeads_nodup.filter _

theorem State.markAt_eq (m : Mark) (s : State) (n : HeadNo) :
    s.markAt m n =
      { s with trackers := s.trackers.set n (s.trackers[n].take s.active m).1 }.raiseAll
        (s.trackers[n].take s.active m).2 := rfl

/-- A mark delivered to the heads of a set, each of which raises one fault of kind `k` or none: the trackers of the
set take it, the others keep what they held, and each head that raises it counts once. -/
theorem State.deliverMark_eq (m : Mark) (k : FaultKind) (hs : List HeadNo) : ∀ s : State, hs.Nodup →
    (∀ n : HeadNo, n ∈ hs → (s.trackers[n].take s.active m).2 = [] ∨ (s.trackers[n].take s.active m).2 = [k]) →
    ∃ (t : State) (raisers : List HeadNo), s.deliverMark m hs = t ∧
      (∀ n : HeadNo, n ∉ hs → t.trackers[n] = s.trackers[n]) ∧
      (∀ n : HeadNo, n ∈ hs → t.trackers[n] = (s.trackers[n].take s.active m).1) ∧ raisers.Nodup ∧
      (∀ n : HeadNo, n ∈ raisers ↔ n ∈ hs ∧ (s.trackers[n].take s.active m).2 = [k]) ∧
      t = { (raisers.foldl (fun u _ => u.raise k) s) with trackers := t.trackers } := by
  induction hs with
  | nil => intro s _ _; exact ⟨s, [], rfl, fun _ _ => rfl, fun _ h => (by cases h), List.nodup_nil, by simp, rfl⟩
  | cons x xs ih =>
    intro s nd hk
    have nd' := List.nodup_cons.1 nd
    have act : (s.markAt m x).active = s.active := by rw [State.markAt_eq, State.raiseAll_active]; rfl
    have trk : (s.markAt m x).trackers = s.trackers.set x (s.trackers[x].take s.active m).1 := by
      rw [State.markAt_eq, State.raiseAll_trackers]
    have other : ∀ n : HeadNo, n ≠ x → (s.markAt m x).trackers[n] = s.trackers[n] := fun n hn =>
      (congrArg (fun v : Vector Tracker 4 => v[n]) trk).trans (vec_set_ne _ _ (Ne.symm hn))
    have ne : ∀ n : HeadNo, n ∈ xs → n ≠ x := by rintro n hn rfl; exact nd'.1 hn
    obtain ⟨t, gs, e, h1, h2, h3, h4, h5⟩ := ih (s.markAt m x) nd'.2 (by
      intro n hn; rw [act, other n (ne n hn)]; exact hk n (List.mem_cons_of_mem _ hn))
    have hx : t.trackers[x] = (s.trackers[x].take s.active m).1 :=
      (h1 x nd'.1).trans ((congrArg (fun v : Vector Tracker 4 => v[x]) trk).trans (vec_set_self _ _ _))
    have out : ∀ n : HeadNo, n ∉ x :: xs → t.trackers[n] = s.trackers[n] := by
      intro n hn
      have hn' := not_or.1 (fun h => hn (List.mem_cons.2 h))
      rw [h1 n hn'.2, other n hn'.1]
    have ins : ∀ n : HeadNo, n ∈ x :: xs → t.trackers[n] = (s.trackers[n].take s.active m).1 := by
      intro n hn
      rcases List.mem_cons.1 hn with rfl | hn
      · exact hx
      · rw [h2 n hn, act, other n (ne n hn)]
    have fold : ∀ (gs : List HeadNo) (u : State) (v : Vector Tracker 4),
        gs.foldl (fun u _ => u.raise k) { u with trackers := v } =
          { gs.foldl (fun u _ => u.raise k) u with trackers := v } := by
      intro gs
      induction gs with
      | nil => intro u v; rfl
      | cons g gs ih => intro u v; exact ih (u.raise k) v
    rcases hk x (by simp) with hf | hf
    · refine ⟨t, gs, e, out, ins, h3, ?_, ?_⟩
      · intro n
        rw [h4, act]
        constructor
        · rintro ⟨a, b⟩; rw [other n (ne n a)] at b; exact ⟨by simp [a], b⟩
        · rintro ⟨a, b⟩
          rcases List.mem_cons.1 a with rfl | a
          · rw [hf] at b; cases b
          · rw [other n (ne n a)]; exact ⟨a, b⟩
      · have : s.markAt m x = { s with trackers := s.trackers.set x (s.trackers[x].take s.active m).1 } := by
          rw [State.markAt_eq, hf]; rfl
        rw [h5, this, fold]
    · refine ⟨t, x :: gs, e, out, ins, List.nodup_cons.2 ⟨fun hh => nd'.1 ((h4 x).1 hh).1, h3⟩, ?_, ?_⟩
      · intro n
        rw [List.mem_cons, h4, act]
        constructor
        · rintro (rfl | ⟨a, b⟩)
          · exact ⟨by simp, hf⟩
          · rw [other n (ne n a)] at b; exact ⟨by simp [a], b⟩
        · rintro ⟨a, b⟩
          rcases List.mem_cons.1 a with rfl | a
          · exact .inl rfl
          · rw [other n (ne n a)]; exact .inr ⟨a, b⟩
      · have : s.markAt m x =
            { (s.raise k) with trackers := s.trackers.set x (s.trackers[x].take s.active m).1 } := by
          rw [State.markAt_eq, hf]; rfl
        rw [h5, this, fold]; rfl

/-! ## Faults of several heads -/

theorem FaultKind.num_injective {a b : FaultKind} (h : a.num = b.num) : a = b := by
  cases a <;> cases b <;> simp [FaultKind.num] at h ⊢

/-- The order in which two faults are raised is not seen (R185). -/
theorem State.raise_comm (s : State) (a b : FaultKind) : (s.raise a).raise b = (s.raise b).raise a := by
  by_cases h : a = b
  · rw [h]
  · have hv : a.num.val ≠ b.num.val := fun e => h (FaultKind.num_injective (Fin.ext e))
    have flags : ∀ (v : Vector Bool 12) (p q : Prop) [Decidable p] [Decidable q],
        (if q then Vector.set (if p then v.set a.num true else v) b.num true
          else if p then v.set a.num true else v) =
          if p then Vector.set (if q then v.set b.num true else v) a.num true
          else if q then v.set b.num true else v := by
      intro v p q _ _
      split <;> split <;> first | rfl | exact Vector.set_comm _ _ hv
    unfold State.raise
    dsimp only
    congr 1
    · simp only [Fin.getElem_fin]
      rw [Vector.getElem_set_ne _ _ hv, Vector.getElem_set_ne _ _ hv.symm, Vector.set_comm _ _ hv]
    · exact flags s.faultPending (s.active.global.faultMask.getLsbD a.num = true)
        (s.active.global.faultMask.getLsbD b.num = true)

/-- Faults raised in another order leave the same state. -/
theorem State.raiseAll_perm {l m : List FaultKind} (h : l.Perm m) (s : State) : s.raiseAll l = s.raiseAll m := by
  induction h generalizing s with
  | nil => rfl
  | cons x _ ih => exact ih (s.raise x)
  | swap x y l =>
    show State.raiseAll ((s.raise y).raise x) l = State.raiseAll ((s.raise x).raise y) l
    rw [State.raise_comm]
  | trans _ _ h1 h2 => rw [h1, h2]

theorem State.raiseAll_append (s : State) (l m : List FaultKind) : s.raiseAll (l ++ m) = (s.raiseAll l).raiseAll m := by
  unfold State.raiseAll
  rw [List.foldl_append]

/-- Raising faults does not read the trackers. -/
theorem State.raiseAll_withTrackers (s : State) (v : Vector Tracker 4) (l : List FaultKind) :
    State.raiseAll { s with trackers := v } l = { s.raiseAll l with trackers := v } := by
  induction l generalizing s with
  | nil => rfl
  | cons x xs ih => exact ih (s.raise x)

/-- A mark delivered to the heads of a set: the trackers of the set take it, the others keep what they held, and the
faults are those of each head in turn (R13, R19). -/
theorem State.deliverMark_all (m : Mark) (hs : List HeadNo) : ∀ s : State, hs.Nodup →
    (∀ n : HeadNo, n ∉ hs → (s.deliverMark m hs).trackers[n] = s.trackers[n]) ∧
      (∀ n : HeadNo, n ∈ hs → (s.deliverMark m hs).trackers[n] = (s.trackers[n].take s.active m).1) ∧
      s.deliverMark m hs =
        { s.raiseAll (hs.flatMap fun n => (s.trackers[n].take s.active m).2) with
          trackers := (s.deliverMark m hs).trackers } := by
  induction hs with
  | nil => intro s _; exact ⟨fun _ _ => rfl, fun _ h => (by cases h), rfl⟩
  | cons x xs ih =>
    intro s nd
    have nd' := List.nodup_cons.1 nd
    have act : (s.markAt m x).active = s.active := by rw [State.markAt_eq, State.raiseAll_active]; rfl
    have trk : (s.markAt m x).trackers = s.trackers.set x (s.trackers[x].take s.active m).1 := by
      rw [State.markAt_eq, State.raiseAll_trackers]
    have self : (s.markAt m x).trackers[x] = (s.trackers[x].take s.active m).1 :=
      (congrArg (fun v : Vector Tracker 4 => v[x]) trk).trans (vec_set_self _ _ _)
    have other : ∀ n : HeadNo, n ≠ x → (s.markAt m x).trackers[n] = s.trackers[n] := fun n hn =>
      (congrArg (fun v : Vector Tracker 4 => v[n]) trk).trans (vec_set_ne _ _ (Ne.symm hn))
    have ne : ∀ n : HeadNo, n ∈ xs → n ≠ x := by rintro n hn rfl; exact nd'.1 hn
    obtain ⟨h1, h2, h3⟩ := ih (s.markAt m x) nd'.2
    have step : s.deliverMark m (x :: xs) = (s.markAt m x).deliverMark m xs := rfl
    have faults : (xs.flatMap fun n => ((s.markAt m x).trackers[n].take (s.markAt m x).active m).2) =
        xs.flatMap fun n => (s.trackers[n].take s.active m).2 := by
      apply List.flatMap_congr
      intro n hn
      rw [act, other n (ne n hn)]
    rw [step]
    refine ⟨fun n hn => ?_, fun n hn => ?_, ?_⟩
    · have hn' := not_or.1 (fun h => hn (List.mem_cons.2 h))
      rw [h1 n hn'.2, other n hn'.1]
    · rcases List.mem_cons.1 hn with rfl | hn
      · rw [h1 n nd'.1, self]
      · rw [h2 n hn, act, other n (ne n hn)]
    · rw [faults] at h3
      rw [h3, List.flatMap_cons, State.raiseAll_append, State.markAt_eq]
      simp only [State.raiseAll_withTrackers]

end Sys2Proof.Machine
end

