-- ==== Sys2Proof/Tests/Slice0.lean ====
section
/-! SUPPORT. Tests: commands with ill-formed operands that the check refuses, small cases from the manual's worked
examples, and for every statement with hypotheses a state and operands that meet them. -/

namespace Sys2Proof.Tests

open Sys2Proof Sys2Proof.Machine

-- One test after another: tests that wait for the kernel side by side take a thread and its stack each.
set_option Elab.async false

/-! ## The well-formedness check -/

theorem test_ill_text_empty : (Instr.text 0 3 []).wellFormed = false := by decide
theorem test_ill_text_long : (Instr.text 0 3 (List.replicate 33 65)).wellFormed = false := by decide
theorem test_ill_name_levels : (Instr.name 0 0 5).wellFormed = false ∧ (Instr.name 0 7 5).wellFormed = false := by
  decide
theorem test_ill_images_short : (Instr.writeTable ⟨0, 1, true⟩ .b 8 0 2 [1, 2, 3, 4, 5, 6, 7]).wellFormed = false := by
  decide
theorem test_ill_images_without_table :
    (Instr.writeTable ⟨0, 1, true⟩ .b 11 0 1 (List.replicate 250 0)).wellFormed = false := by decide +kernel
theorem test_ill_item_code : (Instr.readStatusPass ⟨0, 1, true⟩ 3).wellFormed = false := by decide
theorem test_ill_known_directive_code :
    (Instr.unknownDirective ⟨0, 1, true⟩ 1 []).wellFormed = false ∧
      (Instr.unknownDirective ⟨0, 1, true⟩ 15 []).wellFormed = false := by decide
theorem test_ill_operands_long : (Instr.unknownDirective ⟨0, 1, true⟩ 16 (List.replicate 252 0)).wellFormed = false := by
  decide +kernel
theorem test_ill_record : (⟨0, .malformed⟩ : Record).wellFormed = false := by decide
theorem test_well_formed :
    (Instr.text 0 3 [65]).wellFormed = true ∧ (Instr.name 0 6 5).wellFormed = true ∧
      (Instr.writeTable ⟨0, 1, true⟩ .b 8 0 2 [1, 2, 3, 4, 5, 6, 7, 8]).wellFormed = true ∧
      (Instr.readStatusPass ⟨0, 1, true⟩ 4).wellFormed = true ∧
      (Instr.unknownDirective ⟨0, 1, true⟩ 16 [7]).wellFormed = true := by decide

/-! ## A small machine -/

/-- A bank with head 0 at addresses 100 to 200, head 1 at 200 to 300, one fixed menu and one pop-up menu. -/
def bank : Bank :=
  { Bank.defaults with
    headmap := #v[⟨⟨true, 100, 200⟩, ⟨false, 0, 0⟩⟩, ⟨⟨true, 200, 300⟩, ⟨false, 0, 0⟩⟩, ⟨⟨false, 0, 0⟩, ⟨false, 0, 0⟩⟩,
      ⟨⟨false, 0, 0⟩, ⟨false, 0, 0⟩⟩]
    profile := Bank.defaults.profile.set 0 { Bank.defaults.profile[0] with popup := 5, view := 3 }
    classes := (Bank.defaults.classes.set 1 ⟨true, false, 5⟩).set 2 ⟨false, true, 1⟩
    menu := (Bank.defaults.menu.set 3 ⟨1, 7, 3, 40, 0, 0⟩).set 5 ⟨2, 0, 4, 64, 300, 120⟩
    item := (((((((((Bank.defaults.item.set 40 ⟨0, true, 11, 0⟩).set 41 ⟨2, true, 12, 2⟩).set 42 ⟨3, true, 13, 4⟩).set 43
      ⟨0, false, 14, 0⟩).set 64 ⟨0, true, 101, 0⟩).set 65 ⟨2, true, 102, 2⟩).set 66 ⟨3, true, 103, 4⟩).set 67
      ⟨4, true, 104, 0⟩).set 68 ⟨1, true, 105, 0⟩)
    global := { Bank.defaults.global with stall := #v[20, 0, 0, 0] } }

/-- An open pass with that bank active. -/
def base : State := { State.reset with bankA := bank, passState := .opened }

/-- A channel in a state with its levels. -/
def chan (st : ChanState) (tip : Tip) (button : Button) : PenChannel :=
  { PenChannel.powerOn Bank.defaults 0 ⟨tip, button⟩ with state := st }

/-- Station 0 with a channel, a report queue and a trail. -/
def station (c : PenChannel) (q : List ChannelReport) (trail : List TrailEntry) : State :=
  { base with
    chans := base.chans.set 0 c, queues := base.queues.set 0 q
    ports := base.ports.set 0 { base.ports[0] with trail := trail, credit := 8 - sentCount trail } }

/-- A visible stroke of a name path. -/
def stroke (path : Path) (state : EntryState) : TrailEntry :=
  ⟨.stream 150, .draw, true, .name (path.map .value) false, ⟨3, 4⟩, state⟩

/-- A visible stroke of an item of a region. -/
def itemStroke (m : MenuId) (kind : RegionKind) (k : ItemNo) (disabled : Bool) (state : EntryState) : TrailEntry :=
  ⟨.stream 150, .draw, true, .menu m kind (some ⟨k, disabled⟩), ⟨3, 4⟩, state⟩

/-- A candidate of a path. -/
def candidate (path : Path) (hits : Nat) : Candidate := ⟨.pick path, some path, 150, ⟨3, 4⟩, hits, 1, 0⟩

/-- A table of candidates from entry 0 on. -/
def tableOf (a b : Option Candidate) : Vector (Option Candidate) 4 := #v[a, b, none, none]

/-- A pop-up open over an activity. -/
def popup (saved : Saved) (tally : Vector Nat 32) (opening : Tip) (note : Bool) : Popup :=
  ⟨5, ⟨10, 20⟩, tally, 0, ⟨saved, 0, false, opening, note⟩⟩

/-- A tally with one counter. -/
def one (k : Fin 32) : Vector Nat 32 := (Vector.replicate 32 0).set k 3

/-- A track at a point. -/
def track (arms : Arms) : Tracking := ⟨⟨100, 100⟩, arms, 0, 3, none⟩

/-- A directive's header. -/
def hdr (want : Bool) : DirHeader := ⟨0, 9, want⟩

/-- The state a command leaves. -/
def after (c : Instr) (s : State) : State :=
  match exec c s with
  | .next t => t
  | .fault _ => s
  | .refused _ => s

theorem base_free : base.InputFree := ⟨rfl, rfl⟩

/-- The input held: a record of an expansion waits for the credit of head 1, and a record waits behind it. -/
def heldByDelivery (s : State) : State :=
  { s with
    inHand := some (.deliver ⟨250, .slot .cross⟩ #v[[], [⟨.move ⟨0, 0⟩, .cross .e none, .name [] false⟩], [], []])
    offered := [⟨250, .slot .cross⟩] }

/-- The input held: a directive waits for reply space, and a record waits behind it. -/
def heldByDirective (s : State) : State :=
  { s with
    replies := List.replicate 8 ⟨0, 1, .done, .none⟩, reserved := false
    inHand := some (.directive ⟨0, 9, true⟩ .copyBank), offered := [⟨250, .slot .cross⟩] }

theorem heldByDelivery_ok (s : State) : (heldByDelivery s).InputHeld ∧ (heldByDelivery s).NoDirective :=
  ⟨rfl, .inr rfl, fun _ _ h => nomatch h⟩
theorem heldByDirective_ok (s : State) :
    (heldByDirective s).InputHeld ∧ (heldByDirective s).NoDelivery ∧ ¬ (heldByDirective s).HasReplySpace :=
  ⟨rfl, ⟨.inr rfl, fun _ _ h => nomatch h⟩, by
    show ¬ (List.replicate 8 _).length + 0 < 8
    rw [List.length_replicate]
    decide⟩
theorem free_ok {s : State} (h : s.InputFree) : s.InputOk ∧ s.NoDelivery ∧ s.NoDirective :=
  ⟨.inl h, ⟨.inl h, fun _ _ e => nomatch h.hand.symm.trans e⟩, .inl h, fun _ _ e => nomatch h.hand.symm.trans e⟩

/-! ## Commands -/

theorem test_passStart : (after (.passStart 0) State.reset).passState = .opened := by decide
theorem test_passEnd :
    (after (.passEnd 0) base).passState = .closed ∧ (after (.passEnd 0) base).passCount = 1 := by decide +kernel
theorem test_framing : (after (.passEnd 0) State.reset).faultCounts[0] = 1 := by decide
theorem test_draw : ((after (.draw 200 ⟨1, 2⟩ 4) base).ports.map (·.credit)) = #v[7, 7, 8, 8] := by decide +kernel
theorem test_routeMiss : (after (.move 301 ⟨1, 2⟩) base).faultCounts[2] = 1 := by decide +kernel
theorem test_name : (after (.name 150 2 7) base).trackers[0] = ⟨[.unknown, .value 7], true, .outside⟩ := by
  decide +kernel
theorem test_item :
    (after (.item 150 3) (after (.menuOpen 150 3) base)).trackers[0].region = .inside 3 .fixed (some ⟨3, true⟩) := by
  decide +kernel
theorem test_stall :
    (after (.stallTimerExpiry 0) (after (.draw 150 ⟨1, 2⟩ 4) base)).ports[0] = ⟨.down, 8, [], .stopped, ⟨1, 2⟩⟩ := by
  decide +kernel
theorem test_completion :
    (after (.completion 0) (after (.draw 150 ⟨1, 2⟩ 0) base)).ports[0] = ⟨.up, 8, [], .stopped, ⟨1, 2⟩⟩ := by
  decide +kernel
/-- The readout of section 8.10. -/
theorem test_readout :
    readoutText { Bank.defaults with scale := Bank.defaults.scale.set 3 ⟨-1600, -1200, 800, 800⟩ } 3 ⟨400, -200⟩ =
      [88, 43, 48, 54, 53, 45, 48, 49, 45, 50, 32, 89, 43, 48, 51, 50, 45, 48, 54, 45, 53] := by decide +kernel
/-- The header word of a report (section 12.4). -/
theorem test_miss_words : ChannelReport.words 2 (.miss 7) = [0x2202, 7] := by decide
theorem test_copyMove :
    (after .copyMove (after (.copyBank (hdr false)) base)).copyPos = some .profile := by decide +kernel
theorem test_creditGrant : (after (.creditGrant 0x3F) State.reset).credit = 15 := by decide +kernel
theorem test_selection_of_a_status :
    (after .selection (after (.creditGrant 1) (after (.passEnd 0) State.reset))).link =
      .busy (.status #v[true, false, false, false, false, false, false, false, false, false, false, false]
        #v[1, 0, 0, 0, 0, 0, 0, 0, 0, 0, 0, 0]) := by decide +kernel

/-! ## The statements' hypotheses are met: the queue, the resets and the stream input -/

theorem reaches0 : base.reaches 100 0 := by
  refine ⟨.inl (.inl ?_), rfl⟩; unfold Window.holds; decide
theorem reaches_last : base.reaches 200 0 ∧ base.reaches 200 1 := by
  refine ⟨⟨.inl (.inl ?_), rfl⟩, ⟨.inl (.inl ?_), rfl⟩⟩ <;> unfold Window.holds <;> decide
theorem reaches_only : ∀ k : HeadNo, base.reaches 150 k ↔ k = 0 := by
  unfold State.reaches State.names State.covers Window.holds; decide +kernel
theorem uncovered : ∀ k : HeadNo, ¬ base.names 301 k := by
  unfold State.names State.covers Window.holds; decide +kernel
/-- Head 0 taken down. -/
def head0Down : State := { base with ports := base.ports.set 0 { base.ports[0] with state := .down } }
theorem covered_but_down : (∃ k, head0Down.names 150 k) ∧ ∀ k, ¬ head0Down.reaches 150 k := by
  unfold State.reaches State.names State.covers Window.holds; decide +kernel
/-- A reply queue with `k` replies. -/
def replies (k : Nat) : List Reply := List.replicate k ⟨0, 1, .done, .none⟩
theorem takes_with_one_space : ({ base with replies := replies 7 } : State).Takes (hdr true) :=
  ⟨⟨rfl, rfl⟩, fun _ => by unfold State.HasReplySpace; decide⟩
theorem takes_unwanted : ({ base with replies := replies 8 } : State).Takes (hdr false) :=
  ⟨⟨rfl, rfl⟩, fun h => nomatch h⟩
theorem takes_replying : ({ base with replies := replies 6, reserved := true } : State).TakesReplying :=
  ⟨⟨rfl, rfl⟩, by unfold State.HasReplySpace; decide⟩
theorem takes : base.Takes (hdr true) := ⟨base_free, fun _ => by unfold State.HasReplySpace; decide⟩

theorem test_witness_StepRunsTheFrontCommand :
    ({ base with pending := [.selection, .copyMove] } : State).pending = .selection :: [.copyMove] := rfl
theorem test_witness_EveryCommandCompletes : State.reset.pending = [] := rfl
theorem test_witness_RestartResetsLiveState : ∃ (s : State) (t : State), s.Takes (hdr true) ∧ t.Takes (hdr false) :=
  ⟨_, _, takes_with_one_space, takes_unwanted⟩
theorem test_witness_MalformedRecordIsCountedAndDiscarded :
    base.InputFree ∧ (¬ (1 ≤ (0 : BitVec 3).toNat ∧ (0 : BitVec 3).toNat ≤ 6)) ∧
      (¬ (1 ≤ (7 : BitVec 3).toNat ∧ (7 : BitVec 3).toNat ≤ 6)) ∧
      (¬ (1 ≤ ([] : List Char8).length ∧ ([] : List Char8).length ≤ 32)) ∧
      (¬ (1 ≤ (List.replicate 33 (65 : Char8)).length ∧ (List.replicate 33 (65 : Char8)).length ≤ 32)) ∧
      (imageWords 8 = some 4 ∧ ([1, 2, 3] : List Word).length ≠ (1 : BitVec 5).toNat * 4) ∧ base.Takes (hdr true) :=
  ⟨base_free, by decide, by decide, by decide, by rw [List.length_replicate]; decide, ⟨by decide, by decide⟩, takes⟩
theorem test_witness_ClosedPassRaisesFraming :
    State.reset.InputFree ∧ State.reset.passState = .closed ∧ routedAddr? (.menuClose 150) = some 150 ∧
      routedAddr? (.name 150 6 0) = some 150 := ⟨⟨rfl, rfl⟩, rfl, rfl, rfl⟩
theorem test_witness_PassStartOpensThePass :
    (State.reset.InputFree ∧ State.reset.passState = .closed) ∧ (base.InputFree ∧ base.passState = .opened) :=
  ⟨⟨⟨rfl, rfl⟩, rfl⟩, base_free, rfl⟩
theorem test_witness_PassEndNotifiesEachChannelAndCounts :
    (base.InputFree ∧ base.passState = .opened ∧ base.pendingSwitch = none ∧ base.chans[(0 : HeadNo)].state = .off) ∧
      ∀ st, let s := station (chan st .up .released) [] []
        s.InputFree ∧ s.passState = .opened ∧ s.pendingSwitch = none ∧ s.chans[(0 : HeadNo)].state = st :=
  ⟨⟨base_free, rfl, rfl, rfl⟩, fun _ => ⟨⟨rfl, rfl⟩, rfl, rfl, rfl⟩⟩
theorem test_witness_RouteMissAndQuietDiscard :
    (base.InputFree ∧ base.passState = .opened ∧ routedAddr? (.item 301 0) = some 301 ∧ ∀ n, ¬ base.names 301 n) ∧
      (head0Down.InputFree ∧ head0Down.passState = .opened ∧ routedAddr? (.crossSlot 150) = some 150 ∧
        (∃ n, head0Down.names 150 n) ∧ ∀ n, ¬ head0Down.reaches 150 n) :=
  ⟨⟨base_free, rfl, rfl, uncovered⟩, ⟨rfl, rfl⟩, rfl, rfl, covered_but_down.1, covered_but_down.2⟩
theorem test_witness_DeliveryForwardsWhatCreditAllows :
    base.InputFree ∧ base.passState = .opened ∧
      (∃ x, beamOf? (.draw 200 ⟨1, 2⟩ 0) = some x ∧ (⟨200, .beam (.draw ⟨1, 2⟩ 0)⟩ : Record) = ⟨x.1, .beam x.2⟩) ∧
      (∃ x, slotOf? (.crossSlot 100) = some x ∧ (⟨100, .slot .cross⟩ : Record) = ⟨x.1, .slot x.2⟩) ∧
      (∃ n, base.reaches 200 n) ∧ ∃ n, base.reaches 100 n :=
  ⟨base_free, rfl, ⟨_, rfl, rfl⟩, ⟨_, rfl, rfl⟩, ⟨_, reaches_last.2⟩, _, reaches0⟩
theorem test_witness_HeldInputTakesNoRecord :
    (State.InputHeld { base with
      inHand := some (.deliver ⟨150, .slot .cross⟩ #v[[⟨.move ⟨0, 0⟩, .cross .e none, .name [] false⟩], [], [], []]) }) ∧
    (State.InputHeld { base with replies := replies 8, inHand := some (.directive (hdr true) .copyBank) }) ∧
    (let s : State := { base with replies := replies 8, credit := 1 }
     s.InputFree ∧ (Record.formOk ((hdr true).record .copyBank) = true ∧ (hdr true).want = true) ∧
       (Record.formOk ((hdr false).record .switchBank) = true ∧ RepliesUnasked .switchBank ∧
         RepliesUnasked (.readTable .a 9 0 8) ∧ RepliesUnasked (.readPass 4)) ∧ s.replies = ⟨0, 1, .done, .none⟩ :: replies 7 ∧ s.replies.length + (if s.reserved then 1 else 0) = 8 ∧
       s.Selects 4 ∧ s.active.ring[(4 : Fin 8)] = 4) := by
  refine ⟨rfl, rfl, ⟨rfl, rfl⟩, ⟨rfl, rfl⟩, ⟨rfl, trivial, trivial, trivial⟩, rfl, rfl, ⟨rfl, by decide, ?_⟩,
    by decide +kernel⟩
  refine ⟨4, by decide, rfl, .inr (.inl ⟨by decide +kernel, by decide⟩), ?_⟩
  unfold State.SlotReady
  have : ∀ j : Fin 8, j.val < 4 → ¬ ((∃ n : HeadNo, base.active.ring[j].toNat = n.val ∧ base.queues[n] ≠ []) ∨
      (base.active.ring[j] = 4) ∨ (base.active.ring[j] = 5 ∧ ∃ k : Fin 12, base.faultPending[k] = true)) := by
    decide +kernel
  intro j m hm hj h
  have hj4 : j.val < 4 := by rw [hj]; show (0 + m) % 8 < 4; omega
  exact this j hj4 (h.imp_right (Or.imp_left (·.1)))

/-! ## Trackers and editor -/

theorem test_witness_NameSetsItsLevelInEachTracker :
    base.InputFree ∧ base.passState = .opened ∧ (1 ≤ (1 : BitVec 3).toNat ∧ (1 : BitVec 3).toNat ≤ 6) ∧
      (1 ≤ (6 : BitVec 3).toNat ∧ (6 : BitVec 3).toNat ≤ 6) ∧ base.reaches 150 0 ∧
      (1 : BitVec 3).toNat ≤ base.trackers[(0 : HeadNo)].stack.length + 1 ∧
      base.trackers[(0 : HeadNo)].stack.length + 1 < (2 : BitVec 3).toNat ∧ ¬ base.reaches 150 1 := by
  refine ⟨base_free, rfl, by decide, by decide, (reaches_only 0).2 rfl, by decide, by decide, fun h => ?_⟩
  exact absurd ((reaches_only 1).1 h) (by decide)

/-- Tracker 0 in a region. -/
def inRegion (r : Region) : State := { base with trackers := base.trackers.set 0 { base.trackers[0] with region := r } }
theorem inRegion_reaches (r : Region) (k : HeadNo) : (inRegion r).reaches 150 k ↔ k = 0 := reaches_only k

theorem test_witness_MenuMarksOpenRegionsAndSetItems :
    (base.InputFree ∧ base.passState = .opened ∧ (base.reaches 200 0 ∧ base.reaches 200 1) ∧ ¬ base.reaches 150 1 ∧
      (∃ e, base.active.menu[(3 : MenuId).toNat]? = some e) ∧ base.active.menu[(32 : MenuId).toNat]? = none ∧
      base.trackers[(0 : HeadNo)].region = .outside) ∧
    (inRegion (.inside 40 .undefined none)).trackers[(0 : HeadNo)].region = .inside 40 .undefined none ∧
    (let s := inRegion (.inside 3 .fixed none)
     s.InputFree ∧ s.passState = .opened ∧ s.reaches 150 0 ∧
       s.trackers[(0 : HeadNo)].region = .inside 3 .fixed none ∧
       ∃ e i, s.active.menu[(3 : MenuId).toNat]? = some e ∧ (3 : ItemNo).toNat < e.countLess1.toNat + 1 ∧
         s.active.item[e.first.toNat + (3 : ItemNo).toNat]? = some i ∧
         ¬ (4 : ItemNo).toNat < e.countLess1.toNat + 1) :=
  ⟨⟨base_free, rfl, reaches_last, fun h => absurd ((reaches_only 1).1 h) (by decide), ⟨_, rfl⟩, by decide +kernel,
      by decide⟩,
    by decide, ⟨rfl, rfl⟩, rfl, (inRegion_reaches _ 0).2 rfl, by decide, ⟨1, 7, 3, 40, 0, 0⟩, ⟨0, false, 14, 0⟩, by decide +kernel, by decide, by decide +kernel, by decide⟩
theorem test_witness_MenuCloseClosesTheRegion :
    base.InputFree ∧ base.passState = .opened ∧ (∃ n, base.reaches 150 n) ∧
      (∃ n, (inRegion (.inside 3 .fixed none)).reaches 150 n) :=
  ⟨base_free, rfl, ⟨0, (reaches_only 0).2 rfl⟩, 0, (inRegion_reaches _ 0).2 rfl⟩

/-- A pattern of each kind over paths that begin with 2, its flag set, a pattern of kind NONE and depth 7, and the name
path 2, 1 at head 0. -/
def patterned (kind : BitVec 2) (pass : PassNo) (slot : Option Path) (poisoned : Bool) : State :=
  { base with
    bankA :=
      { bank with
        pattern := (bank.pattern.set 0 ⟨kind, 1, false, 1, (Vector.replicate 6 ⟨false, 0⟩).set 0 ⟨true, 2⟩⟩).set 15
          ⟨0, 1, false, 7, Vector.replicate 6 ⟨false, 0⟩⟩ }
    flags := base.flags.set 0 true, passCount := pass
    trackers := base.trackers.set 0 ⟨[.value 2, .value 1], poisoned, .outside⟩
    chans := base.chans.set 0 { base.chans[0] with highlight := slot } }
theorem flag_set : ∀ kind : BitVec 2, (patterned kind 8 none false).flags[(0 : Fin 16)] = true := by decide +kernel

theorem test_witness_EditsOutsideMenuRegions :
    (∀ kind : BitVec 2, let s := patterned kind 8 none false
      s.trackers[(0 : HeadNo)].region = .outside ∧ (∀ k : Fin 16, s.active.pattern[k].kind ≠ 0 →
          s.active.pattern[k].depth.toNat ≤ 6) ∧
        s.trackers[(0 : HeadNo)].poisoned = false ∧
        s.trackers[(0 : HeadNo)].stack = ([2, 1] : Path).map LevelVal.value ∧ (kind ≠ 0 → s.PatternCovers kind 0 [2, 1])) ∧
    ((patterned 2 7 none false).active.pattern[(15 : Fin 16)].depth = 7 ∧
      (patterned 2 7 none false).active.pattern[(15 : Fin 16)].kind = 0) ∧
    (patterned 2 7 none false).passCount.toNat % 16 = 7 ∧ (patterned 2 8 none false).passCount.toNat % 16 = 8 ∧
    (patterned 0 0 (some [2]) false).chans[(0 : HeadNo)].highlight = some [2] ∧ ([2] : Path) <+: [2, 1] ∧
    (patterned 0 0 none true).trackers[(0 : HeadNo)].poisoned = true := by
  refine ⟨?_, by decide +kernel, by decide, by decide, by decide, ⟨[1], rfl⟩, by decide⟩
  unfold State.PatternCovers
  have h : ∀ kind : BitVec 2, let s := patterned kind 8 none false
      s.trackers[(0 : HeadNo)].region = .outside ∧ (∀ k : Fin 16, s.active.pattern[k].kind ≠ 0 →
          s.active.pattern[k].depth.toNat ≤ 6) ∧
        s.trackers[(0 : HeadNo)].poisoned = false ∧
        s.trackers[(0 : HeadNo)].stack = ([2, 1] : Path).map LevelVal.value := by decide +kernel
  intro kind
  obtain ⟨h1, h2, h3, h4⟩ := h kind
  refine ⟨h1, h2, h3, h4, fun _ => ⟨0, flag_set kind, rfl, by show (1 : BitVec 4).getLsbD 0 = true; decide, by show (1 : BitVec 3).toNat ≤ 2; decide, ?_⟩⟩
  intro j hj _
  have h0 : j = 0 := Fin.ext (Nat.lt_one_iff.1 hj)
  subst h0
  rfl

theorem inRegion_off (r : Region) : (inRegion r).chans[(0 : HeadNo)].state = .off := rfl

/-- Tracker 0 in a region while channel 0 has the pop-up open. -/
def gated (m : MenuId) (kind : RegionKind) (it : Option ItemMark) : State :=
  { inRegion (.inside m kind it) with
    chans := base.chans.set 0 (chan (.popup (popup .idle (.replicate 32 0) .up false)) .up .held) }
theorem test_witness_EditsInsideMenuRegions :
    (gated 3 .fixed (some ⟨3, true⟩)).trackers[(0 : HeadNo)].region = .inside 3 .fixed (some ⟨3, true⟩) ∧
    (gated 40 .undefined none).trackers[(0 : HeadNo)].region = .inside 40 .undefined none ∧
    (let s := gated 5 .popup (some ⟨0, false⟩)
     s.trackers[(0 : HeadNo)].region = .inside 5 .popup (some ⟨0, false⟩) ∧
       ∃ e p, s.active.menu[(5 : MenuId).toNat]? = some e ∧ e.owner.toNat = (0 : HeadNo).val ∧
         s.chans[(0 : HeadNo)].state = .popup p ∧ p.menu = 5) ∧
    (let s := inRegion (.inside 5 .popup none)
     ¬ ∃ e p, s.active.menu[(5 : MenuId).toNat]? = some e ∧ e.owner.toNat = (0 : HeadNo).val ∧
         s.chans[(0 : HeadNo)].state = .popup p ∧ p.menu = 5) := by
  refine ⟨by decide, by decide, ⟨by decide, ⟨2, 0, 4, 64, 300, 120⟩, popup .idle (.replicate 32 0) .up false,
    by decide +kernel, by decide, by decide +kernel, rfl⟩, ?_⟩
  intro s h
  obtain ⟨e, p, _, _, h, _⟩ := h
  exact nomatch (inRegion_off _).symm.trans h

theorem not_in_popup : ∀ m it, base.trackers[(0 : HeadNo)].region ≠ .inside m .popup it := fun _ _ h =>
  (nomatch (show Region.outside = .inside _ _ _ from h))
theorem test_witness_CrossExpandsIntoTwelveRecords :
    (∀ t, base.chans[(0 : HeadNo)].state ≠ .track t) ∧
    (∃ m it, (inRegion (.inside 5 .popup none)).trackers[(0 : HeadNo)].region = .inside m .popup it) ∧
    (let s := station (chan (.track (track .empty)) .down .released) [] []
     s.chans[(0 : HeadNo)].state = .track (track .empty) ∧ ∀ m it, s.trackers[(0 : HeadNo)].region ≠ .inside m .popup it) :=
  ⟨fun _ h => (nomatch (show ChanState.off = .track _ from h)), ⟨_, _, rfl⟩, rfl, not_in_popup⟩
theorem test_witness_ReadoutExpandsIntoMoveAndText :
    (let s := station (chan (.track (track .empty)) .down .released) [] []
     s.chans[(0 : HeadNo)].state = .track (track .empty) ∧ ∀ m it, s.trackers[(0 : HeadNo)].region ≠ .inside m .popup it) ∧
    (999 < (96000 : Int).natAbs / 96 ∧ (-95999 : Int).natAbs / 96 ≤ 999) ∧
    eighths 2047 (-2048) 65535 = some 1048304 ∧ 15 < (16 : NameVal).toNat ∧ (15 : NameVal).toNat = (15 : Fin 16).val :=
  ⟨⟨rfl, not_in_popup⟩, by decide, by decide +kernel, by decide, rfl⟩

/-! ## Heads, pens and attempts -/

/-- Head 0 with two DRAWN strokes and `k` SENT ones. -/
def trailed (k : Nat) : State :=
  station base.chans[(0 : HeadNo)] [] ([stroke [2, 1] .drawn, stroke [2, 1] .drawn] ++ List.replicate k (stroke [2, 1] .sent))
theorem test_witness_CompletionRetiresTheOldestSentEntry :
    (∀ k : Fin 2, let s := trailed (1 + k.val)
      (s.InputFree ∧ (heldByDelivery s).InputOk ∧ (heldByDirective s).InputOk) ∧
        (∀ r w, (heldByDelivery s).inHand = some (.deliver r w) → w[(0 : HeadNo)] = []) ∧
        s.ports[(0 : HeadNo)].state = .up ∧
        s.ports[(0 : HeadNo)].trail =
          [stroke [2, 1] .drawn, stroke [2, 1] .drawn] ++ stroke [2, 1] .sent :: List.replicate k.val (stroke [2, 1] .sent) ∧
        (∀ x ∈ [stroke [2, 1] .drawn, stroke [2, 1] .drawn], x.state = .drawn) ∧
        (∀ x ∈ stroke [2, 1] .sent :: List.replicate k.val (stroke [2, 1] .sent), x.state = .sent) ∧
        [stroke [2, 1] .drawn, stroke [2, 1] .drawn].length ≤ s.active.profile[(0 : HeadNo)].l.toNat) ∧
    (let s := trailed 8
     s.offered = [] ∧ s.inHand = none ∧ s.ports[(0 : HeadNo)].state = .up ∧ s.ports[(0 : HeadNo)].credit = 0 ∧
       (∃ e ∈ s.ports[(0 : HeadNo)].trail, e.state = .sent) ∧ ∃ t, exec (.completion 0) s = .next t) := by
  refine ⟨?_, rfl, rfl, rfl, by decide, by decide, _, rfl⟩
  intro k
  refine ⟨⟨⟨rfl, rfl⟩, .inr (heldByDelivery_ok _).1, .inr (heldByDirective_ok _).1⟩, fun _ _ h => by cases h; rfl, rfl,
    ?_, ?_, ?_, ?_⟩ <;> revert k <;> decide +kernel
theorem test_witness_StrayAndLateCompletionsOnlyCount :
    ((trailed 0).ports[(0 : HeadNo)].state = .up ∧ ∀ e ∈ (trailed 0).ports[(0 : HeadNo)].trail, e.state = .drawn) ∧
      head0Down.ports[(0 : HeadNo)].state = .down := ⟨⟨rfl, by decide⟩, by decide⟩
theorem test_witness_StallExpiryTakesTheHeadDown :
    let s := after (.draw 150 ⟨1, 2⟩ 4) base
    s.ports[(0 : HeadNo)].state = .up ∧ s.ports[(0 : HeadNo)].timer = .running 20 ∧ s.offered = [] ∧ s.inHand = none := by
  decide +kernel
theorem test_witness_StallExpiryTakesTheHeadDown_held :
    let s : State := { station base.chans[(0 : HeadNo)] [] [stroke [2] .sent] with
      ports := base.ports.set 0 ⟨.up, 0, List.replicate 8 (stroke [2] .sent), .running 20, ⟨0, 0⟩⟩
      inHand := some (.deliver ⟨150, .slot .cross⟩ #v[[⟨.move ⟨0, 0⟩, .readout, .name [] false⟩], [], [], []]) }
    s.ports[(0 : HeadNo)].state = .up ∧ s.ports[(0 : HeadNo)].timer = .running 20 ∧ s.offered = [] ∧
      ∃ r w, s.inHand = some (.deliver r w) := ⟨by decide, by decide, rfl, _, _, rfl⟩
theorem test_witness_StallExpiryTakesTheHeadDown_directive :
    let s := heldByDirective (after (.draw 150 ⟨1, 2⟩ 4) base)
    (s.ports[(0 : HeadNo)].state = .up ∧ s.ports[(0 : HeadNo)].timer = .running 20) ∧
      (∃ h d, s.inHand = some (.directive h d)) ∧ ¬ s.HasReplySpace :=
  ⟨by decide +kernel, ⟨_, _, rfl⟩, (heldByDirective_ok _).2.2⟩
theorem test_witness_RestartHeadBringsTheHeadUp :
    base.Takes (hdr true) ∧ 3 < (4 : BitVec 8).toNat ∧ (3 : BitVec 8).toNat = (3 : HeadNo).val ∧
      base.ports[(3 : HeadNo)].state = .up ∧ head0Down.Takes (hdr false) ∧ (0 : BitVec 8).toNat = (0 : HeadNo).val ∧
      head0Down.ports[(0 : HeadNo)].state = .down :=
  ⟨takes, by decide, rfl, rfl, ⟨⟨rfl, rfl⟩, fun h => nomatch h⟩, rfl, by decide⟩
theorem test_witness_StruckSetIsDrawnThenInDrawing :
    (∀ e ∈ [stroke [2] .drawn], e.state = .drawn) ∧ (∀ e ∈ [stroke [2] .sent, stroke [3] .sent], e.state = .sent) ∧
      base.ports[(0 : HeadNo)].trail = [] := by decide +kernel
theorem test_witness_HitListNamesEachIdentityOnce :
    (let e := stroke [2, 1] .drawn
     e.visible = true ∧ e.origin = .stream 150 ∧ e.snap = .name (([2, 1] : Path).map .value) false ∧
       bank.passes 0 [2, 1] = true) ∧
    (let e := itemStroke 3 .fixed 0 false .drawn
     e.visible = true ∧ e.origin = .stream 150 ∧ e.snap = .menu 3 .fixed (some ⟨0, false⟩)) ∧
    ({ stroke [2] .drawn with visible := false } : TrailEntry).visible = false ∧
    (∀ a, ({ stroke [2] .drawn with origin := .readout } : TrailEntry).origin ≠ .stream a) ∧
    ({ stroke [2] .drawn with snap := .name [.unknown] true } : TrailEntry).snap = .name [.unknown] true ∧
    (stroke [] .drawn).snap = .name (([] : Path).map .value) false ∧
    Bank.passes { bank with filter := bank.filter.set 0 { bank.filter[0] with other := false } } 0 [2] = false ∧
    (itemStroke 5 .popup 0 false .drawn).snap = .menu 5 .popup (some ⟨0, false⟩) ∧
    (let v : View := ⟨0, bank, 0, (trailed 1).ports[(0 : HeadNo)]⟩
     ∃ x ∈ hitList v 0, x.weight = 2) :=
  ⟨by decide +kernel, by decide, rfl, fun _ h => (nomatch h), rfl, rfl, by decide +kernel, rfl, by decide +kernel⟩
theorem test_hit_list_order :
    (hitList ⟨0, bank, 0, { base.ports[0] with trail := [stroke [2] .drawn, stroke [3] .drawn, stroke [2] .sent] }⟩ 0).map
      (fun x => (x.ident, x.weight)) = [(.pick [2], 2), (.pick [3], 1)] := by decide +kernel
theorem test_witness_StrikeInGatherHandsOnTheHitList :
    let s := station (chan .gather .down .released) [] [stroke [2, 1] .drawn, stroke [2, 1] .sent]
    s.ports[(0 : HeadNo)].state = .up ∧ s.chans[(0 : HeadNo)].state = .gather ∧
      (struckSet s.ports[(0 : HeadNo)].trail).getLast?.map (·.1) = some (stroke [2, 1] .sent) := by decide +kernel
/-- A hit on a path. -/
def hitOn (path : Path) (weight : Nat) : Hit := ⟨.pick path, weight, some path, 150, ⟨3, 4⟩, 1⟩
/-- A gathering channel with a table. -/
def gathering (t : Vector (Option Candidate) 4) : PenChannel := { chan .gather .down .released with table := t }
theorem test_witness_CandidateTableTakesAHit :
    (let c := gathering (tableOf (some (candidate [2] 1)) none)
     c.table[(0 : Fin 4)] = some (candidate [2] 1) ∧ (candidate [2] 1).ident = (hitOn [2] 1).ident ∧
       (∀ j : Fin 4, ∀ f, c.table[j] = some f → f.ident = (hitOn [2] 1).ident → j = 0) ∧
       (∀ i : Fin 4, ∀ e, c.table[i] = some e → e.ident ≠ (hitOn [3] 1).ident) ∧ (hitOn [3] 1).weight ≠ 2 ∧
       (hitOn [3] 2).weight = 2 ∧ c.table[(1 : Fin 4)] = none ∧ (∀ j : Fin 4, j < 1 → c.table[j] ≠ none)) ∧
    (let c := gathering (Vector.replicate 4 (some (candidate [2] 1)))
     (∀ i : Fin 4, ∀ e, c.table[i] = some e → e.ident ≠ (hitOn [3] 2).ident) ∧ ∀ i : Fin 4, c.table[i] ≠ none) := by
  have h1 : ∀ (i : Fin 4), (gathering (tableOf (some (candidate [2] 1)) none)).table[i] =
      if i = 0 then some (candidate [2] 1) else none := by decide
  have h2 : ∀ (i : Fin 4), (gathering (Vector.replicate 4 (some (candidate [2] 1)))).table[i] =
      some (candidate [2] 1) := by decide
  refine ⟨⟨by decide, rfl, ?_, ?_, by decide, rfl, by decide, by decide⟩, ?_, by decide⟩
  · intro j f hf _
    rw [h1] at hf
    split at hf
    · assumption
    · cases hf
  · intro i e he
    rw [h1] at he
    split at he <;> cases he
    decide
  · intro i e he
    rw [h2] at he
    cases he
    decide
theorem test_witness_StrikeOutsideGather :
    head0Down.ports[(0 : HeadNo)].state = .down ∧ base.chans[(0 : HeadNo)].state = .off ∧
    (∃ r q, (station (chan (.wait (.miss 0) .idle) .up .released) [] []).chans[(0 : HeadNo)].state = .wait r q) ∧
    (let s := station (chan .held .down .released) [] [stroke [2] .drawn]
     s.ports[(0 : HeadNo)].state = .up ∧ s.chans[(0 : HeadNo)].state = .held ∧
       (struckSet s.ports[(0 : HeadNo)].trail).getLast?.map (·.1) = some (stroke [2] .drawn)) ∧
    (station (chan (.track (track .empty)) .down .released) [] []).chans[(0 : HeadNo)].state = .track (track .empty) ∧
    (let s := station (chan (.popup (popup .idle (one 1) .up false)) .up .held) [] [itemStroke 5 .popup 1 false .drawn]
     s.chans[(0 : HeadNo)].state = .popup (popup .idle (one 1) .up false) ∧ s.chans[(0 : HeadNo)].button = .held) ∧
    (let s := station (chan (.popup (popup .idle (one 1) .up false)) .up .released) [] []
     s.chans[(0 : HeadNo)].state = .popup (popup .idle (one 1) .up false) ∧ s.chans[(0 : HeadNo)].button = .released) :=
  ⟨by decide, by decide, ⟨_, _, rfl⟩, by decide +kernel, by decide, by decide +kernel, by decide +kernel⟩
/-- A visible stroke of the outer half of the east arm. -/
def armStroke : TrailEntry := ⟨.cross .e (some .outer), .draw, true, .name [] false, ⟨3, 4⟩, .drawn⟩
/-- What a trail with a stroke of the east arm, item 31 DRAWN and item 0 in drawing strikes. -/
def struckTrail : List (TrailEntry × Nat) :=
  struckSet [armStroke, itemStroke 5 .popup 31 false .drawn, itemStroke 5 .popup 0 false .sent]
theorem test_witness_StrikeOutsideGather_struck :
    ArmStruck struckTrail .e .outer ∧ ¬ ArmStruck struckTrail .n .outer ∧ ItemStruck struckTrail 5 0 2 ∧
      ¬ ItemStruck struckTrail 5 31 2 ∧ ItemStruck struckTrail 5 31 1 := by
  have h : struckTrail =
      [(armStroke, 1), (itemStroke 5 .popup 31 false .drawn, 1), (itemStroke 5 .popup 0 false .sent, 2)] := by decide
  rw [h]
  unfold ArmStruck ItemStruck
  refine ⟨⟨_, .head _, rfl, rfl⟩, ?_, ⟨_, .tail _ (.tail _ (.head _)), rfl, rfl, ⟨_, rfl⟩, rfl⟩, ?_,
    ⟨_, .tail _ (.head _), rfl, rfl, ⟨_, rfl⟩, rfl⟩⟩
  · rintro ⟨x, hx, _, ho⟩
    simp only [List.mem_cons, List.not_mem_nil, or_false] at hx
    rcases hx with rfl | rfl | rfl <;> exact absurd ho (by decide)
  · rintro ⟨x, hx, hw, _, _, hs⟩
    simp only [List.mem_cons, List.not_mem_nil, or_false] at hx
    rcases hx with rfl | rfl | rfl
    · exact absurd hw (by decide)
    · exact absurd hw (by decide)
    · exact absurd hs (by decide)
theorem test_witness_TipEventsInEachState :
    (let s := station (chan .idle .up .released) [] []
     s.chans[(0 : HeadNo)].tip = .up ∧ s.ports[(0 : HeadNo)].state = .up ∧ s.chans[(0 : HeadNo)].state = .idle) ∧
    (let s := station (chan .held .down .released) [] []
     s.chans[(0 : HeadNo)].tip = .down ∧ s.ports[(0 : HeadNo)].state = .up ∧ s.chans[(0 : HeadNo)].state = .held) ∧
    (base.chans[(0 : HeadNo)].tip = .up ∧ ¬ (base.ports[(0 : HeadNo)].state = .up ∧ base.chans[(0 : HeadNo)].state = .idle)) ∧
    (station (chan .idle .down .released) [] []).chans[(0 : HeadNo)].state = .idle ∧
    (let s := station (chan .gather .down .released) [] []
     s.chans[(0 : HeadNo)].state = .gather ∧ s.chans[(0 : HeadNo)].Empty) ∧
    (let s := station (chan (.popup (popup .gather (one 1) .down false)) .down .held) [] []
     s.chans[(0 : HeadNo)].tip = .down ∧ s.chans[(0 : HeadNo)].state = .popup (popup .gather (one 1) .down false)) :=
  ⟨by decide, by decide, by decide, by decide, ⟨by decide, by unfold PenChannel.Empty; decide⟩, by decide +kernel⟩
theorem test_witness_WinnerIsFirstInTheOrder :
    (gathering (tableOf (some (candidate [2] 3)) (some (candidate [3] 5)))).winner bank = some (candidate [3] 5) ∧
      (gathering (tableOf none none)).winner bank = none := by decide +kernel
/-- A gather at the tip with a table. -/
def picking (t : Vector (Option Candidate) 4) : State := station (gathering t) [] []
/-- A candidate of a menu item. -/
def itemCandidate (m : MenuId) (k : ItemNo) : Candidate := ⟨.menu m k, none, 150, ⟨3, 4⟩, 3, 1, 0⟩
/-- A winner over one other candidate, whose hits make the call close or not. -/
theorem wins_over {w r : Candidate} {close : Bool} (order : goesBefore bank w 1 r 0) (ne : r ≠ w)
    (call : close = decide (w.hits ≤ r.hits + 1)) :
    (picking (tableOf (some r) (some w))).Wins (gathering (tableOf (some r) (some w))) 1 w close := by
  have tb : ∀ j : Fin 4, (gathering (tableOf (some r) (some w))).table[j] =
      if j = 0 then some r else if j = 1 then some w else none := by
    intro j
    match j with
    | 0 => rfl
    | 1 => rfl
    | 2 => rfl
    | 3 => rfl
  refine ⟨rfl, fun j d hj hd => ?_, ?_⟩
  · rw [tb] at hd
    by_cases h0 : j = 0
    · rw [if_pos h0] at hd
      cases hd
      subst h0
      exact ⟨order, ne⟩
    · rw [if_neg h0, if_neg hj] at hd
      cases hd
  · rw [call, decide_eq_true_iff]
    constructor
    · exact fun h => ⟨r, 0, by decide, rfl, h⟩
    · rintro ⟨d, k, hk, hd, h⟩
      rw [tb] at hd
      by_cases h0 : k = 0
      · rw [if_pos h0] at hd
        cases hd
        exact h
      · rw [if_neg h0, if_neg hk] at hd
        cases hd
theorem test_witness_ReleaseResolutionReportsTheWinner :
    (∀ table, (picking table).chans[(0 : HeadNo)].tip = .down ∧ (picking table).ports[(0 : HeadNo)].state = .up ∧
      (picking table).chans[(0 : HeadNo)].state = .gather) ∧
    (picking (tableOf (some (candidate [2] 3)) (some (candidate [3] 5)))).Wins
      (gathering (tableOf (some (candidate [2] 3)) (some (candidate [3] 5)))) 1 (candidate [3] 5) false ∧
    (candidate [3] 5).ident = .pick [3] ∧
    (∀ k : Fin 4, (picking (tableOf (some (candidate [2] 3)) (some (itemCandidate 3 (.ofFin (k.castLE (by decide))))))).Wins
      (gathering (tableOf (some (candidate [2] 3)) (some (itemCandidate 3 (.ofFin (k.castLE (by decide))))))) 1
      (itemCandidate 3 (.ofFin (k.castLE (by decide)))) true) ∧
    bank.menu[(3 : MenuId).toNat]? = some ⟨1, 7, 3, 40, 0, 0⟩ ∧
    (∀ k : Fin 4, bank.item[40 + k.val]? =
      some #v[⟨0, true, 11, 0⟩, ⟨2, true, 12, 2⟩, ⟨3, true, 13, 4⟩, ⟨0, false, 14, 0⟩][k]) := by
  refine ⟨fun _ => ⟨rfl, rfl, rfl⟩, wins_over ?_ (by decide) (by decide), rfl, fun k => wins_over ?_ ?_ rfl,
    by decide +kernel, by decide +kernel⟩
  · exact .inl (by decide)
  · exact .inr ⟨rfl, .inr ⟨rfl, .inl (show 0 < 1 by decide)⟩⟩
  · exact fun h => nomatch congrArg Candidate.ident h
theorem test_witness_PassEndCountsAGatherAndAPopup :
    (let s := picking (tableOf none none)
     s.InputFree ∧ s.passState = .opened ∧ s.pendingSwitch = none ∧ s.chans[(0 : HeadNo)].state = .gather ∧
       s.chans[(0 : HeadNo)].tip = .down ∧ s.chans[(0 : HeadNo)].Empty) ∧
    (let s := station { gathering (tableOf (some (candidate [2] 3)) none) with gather := 1 } [] []
     ¬ s.chans[(0 : HeadNo)].Empty ∧ s.chans[(0 : HeadNo)].gather + 1 < s.active.profile[(0 : HeadNo)].g.toNat) ∧
    (let s := station { gathering (tableOf (some (candidate [2] 3)) (some (itemCandidate 3 1))) with gather := 2 } [] []
     s.active.profile[(0 : HeadNo)].g.toNat ≤ s.chans[(0 : HeadNo)].gather + 1 ∧ s.OthersKeepFlags 0) ∧
    (let s := station (chan (.popup (popup .idle (one 31) .up false)) .up .held) [] []
     s.chans[(0 : HeadNo)].state = .popup (popup .idle (one 31) .up false) ∧ s.OthersKeepFlags 0 ∧
       (∃ k : Fin 32, 0 < (popup .idle (one 31) .up false).tally[k]) ∧
       (popup .idle (one 31) .up false).count + 1 < s.active.profile[(0 : HeadNo)].m.toNat ∧
       s.active.profile[(0 : HeadNo)].m.toNat ≤ { popup .idle (one 31) .up false with count := 3 }.count + 1 ∧
       Popup.Chooses { popup .idle (one 31) .up false with count := 3 } 31) ∧
    (∀ k : Fin 32, (popup .idle (.replicate 32 0) .up false).tally[k] = 0) := by
  have off : ∀ (c : PenChannel) (m : HeadNo), m ≠ 0 → (station c [] []).chans[m].state = .off := by
    intro c m hm
    have h : (station c [] []).chans[m] = base.chans[m] :=
      Vector.getElem_set_ne (by decide) m.isLt fun e => hm (Fin.ext e.symm)
    rw [h]
    have all : ∀ k : HeadNo, base.chans[k].state = .off := by decide
    exact all m
  have others : ∀ c : PenChannel, (station c [] []).OthersKeepFlags 0 := by
    intro c m hm
    rw [off c m hm]
    exact ⟨fun h => ChanState.noConfusion h, fun _ h => ChanState.noConfusion h⟩
  refine ⟨⟨⟨rfl, rfl⟩, rfl, rfl, rfl, rfl, ?_⟩, ⟨?_, by decide +kernel⟩, ⟨by decide +kernel, others _⟩,
    ⟨rfl, others _, ⟨31, by decide +kernel⟩, by decide +kernel, by decide +kernel, ?_⟩, by decide +kernel⟩
  · unfold PenChannel.Empty; decide +kernel
  · unfold PenChannel.Empty; decide +kernel
  · unfold Popup.Chooses; decide +kernel
/-- A full report queue. -/
def fullQueue : List ChannelReport := List.replicate 4 (.miss 0)
/-- A station whose report can be selected from slot 0. -/
def selecting (c : PenChannel) : State := { station c fullQueue [] with credit := 1 }
theorem ring0 : base.active.ring[(0 : Fin 8)].toNat = (0 : HeadNo).val := by decide +kernel
theorem selecting_selects (c : PenChannel) : (selecting c).Selects 0 :=
  ⟨rfl, Nat.le_refl 1, 0, by decide, rfl, .inl ⟨0, ring0, List.cons_ne_nil _ _⟩,
    fun _ _ h => absurd h (Nat.not_lt_zero _)⟩
theorem held_selects (c : PenChannel) : (heldByDirective (selecting c)).Selects 0 :=
  ⟨rfl, Nat.le_refl 1, 0, by decide, rfl, .inl ⟨0, ring0, List.cons_ne_nil _ _⟩,
    fun _ _ h => absurd h (Nat.not_lt_zero _)⟩
theorem test_witness_FreedPlaceTakesWhatTheChannelKept :
    (∀ c, (selecting c).InputFree ∧ (heldByDelivery (selecting c)).InputOk ∧ (heldByDelivery (selecting c)).Selects 0 ∧
      (selecting c).Selects 0 ∧
      (selecting c).active.ring[(0 : Fin 8)].toNat = (0 : HeadNo).val ∧
      (selecting c).queues[(0 : HeadNo)] = .miss 0 :: List.replicate 3 (.miss 0)) ∧
    (selecting (chan (.wait (.miss 1) .held) .down .released)).chans[(0 : HeadNo)].state = .wait (.miss 1) .held ∧
    (selecting (chan (.wait (.miss 1) (.track ⟨1, 2⟩ 3)) .up .released)).chans[(0 : HeadNo)].state =
      .wait (.miss 1) (.track ⟨1, 2⟩ 3) ∧
    (∃ x, (selecting (chan (.track { track .empty with update := some ⟨0, ⟨0, 0⟩, none, none, false, false⟩ }) .down
      .released)).chans[(0 : HeadNo)].state = .track { track .empty with update := some x }) ∧
    (track .empty).update = none ∧
    (∀ p, (selecting (chan (.popup p) .up .held)).chans[(0 : HeadNo)].state = .popup p) ∧
    (∃ t x, (popup (.track { track .empty with update := some ⟨0, ⟨0, 0⟩, none, none, false, false⟩ }) (one 1) .down
      false).slot.state = .track t ∧ t.update = some x) ∧
    (∀ t, (popup (.track (track .empty)) (one 1) .down false).slot.state = .track t → t.update = none) :=
  ⟨fun c => ⟨⟨rfl, rfl⟩, .inr (heldByDelivery_ok _).1, selecting_selects c, selecting_selects c, ring0, rfl⟩, rfl, rfl,
    ⟨_, rfl⟩, rfl, fun _ => rfl, ⟨_, _, rfl, rfl⟩,
    fun _ h => by cases h; rfl⟩
theorem test_witness_FilterSetJudgesAPath :
    ([2, 63] : Path) ≠ [] ∧ ([2, 63] : Path)[1]? = some 63 ∧ (63 : NameVal).toNat = (63 : Fin 64).val ∧
      ([2, 64] : Path)[1]? = some 64 ∧ 64 ≤ (64 : NameVal).toNat ∧ ([2] : Path)[1]? = none ∧
      bank.filter[(0 : BitVec 2).toFin].level.toNat ≤ ([2, 1, 4] : Path).length ∧
      ([2, 1] : Path).length < bank.filter[(0 : BitVec 2).toFin].level.toNat ∧
      bank.permit[(3 : BitVec 2).toNat * 256 + (4095 : NameVal).toNat / 16]? = some 0 ∧
      (let table := tableOf (some (candidate [2] 3)) (some (itemCandidate 3 1))
       table[(2 : Fin 4)] = none ∧ table[(1 : Fin 4)] = some (itemCandidate 3 1) ∧
         (itemCandidate 3 1).ident = .menu 3 1 ∧ table[(0 : Fin 4)] = some (candidate [2] 3) ∧
         (candidate [2] 3).ident = .pick [2] ∧ (candidate [2] 3).sample = some [2]) := by decide +kernel

/-! ## Pop-ups, tracks, tables, directives and the link -/

theorem test_witness_ButtonPressOpensThePopup :
    (let s := station (chan .gather .down .released) [] []
     s.chans[(0 : HeadNo)].button = .released ∧ s.ports[(0 : HeadNo)].state = .up ∧
       s.active.profile[(0 : HeadNo)].popup ≠ 63 ∧
       s.active.menu[s.active.profile[(0 : HeadNo)].popup.toNat]? = some ⟨2, 0, 4, 64, 300, 120⟩ ∧
       s.chans[(0 : HeadNo)].state = .gather ∧ (⟨0, 0⟩ : Point) = s.chans[(0 : HeadNo)].lastStrike.getD ⟨0, 0⟩) ∧
    (∃ t, (station (chan (.track (track .empty)) .down .released) [] []).chans[(0 : HeadNo)].state = .track t) ∧
    base.active.profile[(1 : HeadNo)].popup = 63 ∧ base.chans[(0 : HeadNo)].state = .off ∧
    (station (chan .idle .up .held) [] []).chans[(0 : HeadNo)].button = .held :=
  ⟨by decide +kernel, ⟨_, rfl⟩, by decide +kernel, by decide, by decide⟩
/-- Channel 0 in a pop-up. -/
def inPopup (p : Popup) (tip : Tip) (q : List ChannelReport) : State := station (chan (.popup p) tip .held) q []
theorem inPopup_facts (p : Popup) (tip : Tip) (q : List ChannelReport) :
    (inPopup p tip q).NoDelivery ∧ (heldByDirective (inPopup p tip q)).NoDelivery ∧
      (inPopup p tip q).chans[(0 : HeadNo)].button = .held ∧
      (inPopup p tip q).ports[(0 : HeadNo)].state = .up ∧ (inPopup p tip q).chans[(0 : HeadNo)].state = .popup p ∧
      (inPopup p tip q).chans[(0 : HeadNo)].tip = tip ∧ (inPopup p tip q).queues[(0 : HeadNo)] = q :=
  ⟨(free_ok ⟨rfl, rfl⟩).2.1, (heldByDirective_ok _).2.1, rfl, rfl, rfl, rfl, rfl⟩
theorem test_witness_ButtonReleaseCancelsAnEmptyPopup :
    (base.InputFree ∧ (heldByDelivery base).InputOk ∧ base.chans[(0 : HeadNo)].button = .released) ∧
    (let s := station (chan .idle .up .held) [] []
     s.InputFree ∧ s.chans[(0 : HeadNo)].button = .held ∧ ∀ p, s.chans[(0 : HeadNo)].state ≠ .popup p) ∧
    (∀ k : Fin 32, (popup .gather (.replicate 32 0) .down false).tally[k] = 0) ∧
    (popup .gather (.replicate 32 0) .down false).slot.Quiet .down ∧
    ((popup .gather (.replicate 32 0) .down true).slot.note = true ∧
      (popup .idle (.replicate 32 0) .up false).slot.tipAtOpening = .up) ∧
    (∀ p tip q, (inPopup p tip q).NoDelivery ∧ (heldByDirective (inPopup p tip q)).NoDelivery ∧
      (inPopup p tip q).chans[(0 : HeadNo)].button = .held ∧
      (inPopup p tip q).ports[(0 : HeadNo)].state = .up ∧ (inPopup p tip q).chans[(0 : HeadNo)].state = .popup p ∧
      (inPopup p tip q).chans[(0 : HeadNo)].tip = tip ∧ (inPopup p tip q).queues[(0 : HeadNo)] = q) :=
  ⟨⟨base_free, .inr (heldByDelivery_ok _).1, by decide⟩,
    ⟨⟨rfl, rfl⟩, rfl, fun _ h => (nomatch (show ChanState.idle = .popup _ from h))⟩,
    by decide +kernel, by unfold SaveSlot.Quiet; decide, ⟨rfl, rfl⟩, inPopup_facts⟩
theorem test_witness_ButtonReleaseMakesTheChoice :
    (∀ k : Fin 32, let p := popup .idle (one k) .up false
      p.slot.Quiet .up ∧ p.Chooses k) ∧
    bank.menu[(5 : MenuId).toNat]? = some ⟨2, 0, 4, 64, 300, 120⟩ ∧
    (∀ k : Fin 5, bank.item[64 + k.val]? =
      some #v[⟨0, true, 101, 0⟩, ⟨2, true, 102, 2⟩, ⟨3, true, 103, 4⟩, ⟨4, true, 104, 0⟩, ⟨1, true, 105, 0⟩][k]) ∧
    ([] : List ChannelReport).length < 4 ∧ 4 ≤ fullQueue.length ∧
    (∀ p tip q, (inPopup p tip q).NoDelivery ∧ (heldByDirective (inPopup p tip q)).NoDelivery ∧
      (inPopup p tip q).chans[(0 : HeadNo)].button = .held ∧
      (inPopup p tip q).ports[(0 : HeadNo)].state = .up ∧ (inPopup p tip q).chans[(0 : HeadNo)].state = .popup p ∧
      (inPopup p tip q).chans[(0 : HeadNo)].tip = tip ∧ (inPopup p tip q).queues[(0 : HeadNo)] = q) := by
  refine ⟨?_, by decide +kernel, by decide +kernel, by decide, by decide, inPopup_facts⟩
  unfold SaveSlot.Quiet Popup.Chooses
  decide +kernel
theorem test_witness_PassEndUpdatesTheTrack :
    (∀ arms q, let s := station (chan (.track (track arms)) .down .released) q []
      s.InputFree ∧ s.passState = .opened ∧ s.pendingSwitch = none ∧ s.chans[(0 : HeadNo)].state = .track (track arms)) ∧
    (track ⟨.outer, .none, .none, .none⟩).arms ≠ ⟨.none, .none, .none, .none⟩ ∧
    (track .empty).arms = ⟨.none, .none, .none, .none⟩ ∧
    (track .empty).miss + 1 < base.active.profile[(0 : HeadNo)].k.toNat ∧
    base.active.profile[(0 : HeadNo)].k.toNat ≤ { track .empty with miss := 3 }.miss + 1 :=
  ⟨fun _ _ => ⟨⟨rfl, rfl⟩, rfl, rfl, rfl⟩, by decide, rfl, by decide +kernel, by decide +kernel⟩
theorem test_witness_WriteTableWritesTheStandby :
    base.Takes (hdr true) ∧ imagesWellFormed 8 1 [1, 2, 3, 4] = true ∧ imagesWellFormed 11 1 [] = true ∧
      TableId.size .scale = 15 + 1 := ⟨takes, by decide, by decide, rfl⟩
theorem test_witness_ReadTableReportsTheImages :
    ({ base with replies := replies 6, reserved := true } : State).TakesReplying := takes_replying
theorem test_witness_CopyAndClearMakeTheStandbyWhole :
    base.Takes (hdr true) ∧ base.copyPos = none ∧
      ({ base with standby := .copying, copyPos := some .global } : State).copyPos = some .global ∧
      (let s : State := { base with standby := .copying, copyPos := some .headmap }
       s.copyPos = some .headmap ∧ s.standby = .copying) := ⟨takes, rfl, rfl, rfl, rfl⟩
theorem test_witness_SwitchIsRequestedOrWithdrawn :
    ({ base with replies := replies 6, reserved := true } : State).TakesReplying ∧ base.Takes (hdr true) ∧
      (let s : State := { base with replies := replies 7, reserved := true, pendingSwitch := some 3 }
       s.InputFree ∧ (hdr true).want = true ∧ ¬ s.HasReplySpace) :=
  ⟨takes_replying, takes, ⟨rfl, rfl⟩, rfl, by unfold State.HasReplySpace; decide⟩
/-- A pop-up open at station 0 when the pass ends, the switch pending to a bank that keeps the menu. -/
def switching : State :=
  { inPopup (popup .idle (one 1) .up false) .up [] with bankB := bank, pendingSwitch := some 3, reserved := true }
/-- The same without the switch, the pass ended. -/
def unswitched : State := after (.passEnd 0) { switching with pendingSwitch := none }
theorem unswitched_chans :
    unswitched.chans[(0 : HeadNo)].state = .popup { popup .idle (one 1) .up false with count := 1 } ∧
      unswitched.chans[(1 : HeadNo)].state = .off := by decide +kernel
theorem test_witness_PassEndAttemptsTheSwitch :
    (∀ st : Standby, let s : State := { base with pendingSwitch := some 3, reserved := true, standby := st }
      s.InputFree ∧ s.passState = .opened ∧ s.pendingSwitch = some 3 ∧ s.standby = st ∧
        s.standbyBank = Bank.defaults) ∧ Bank.defaults.validate = none ∧
    Bank.validate { Bank.defaults with global := { Bank.defaults.global with defaultHead := 4 } } =
      some ⟨.global, 0, none⟩ ∧
    (switching.InputFree ∧ switching.passState = .opened ∧ switching.pendingSwitch = some 3 ∧
      exec (.passEnd 0) { switching with pendingSwitch := none } = .next unswitched ∧
      (∃ p, unswitched.chans[(0 : HeadNo)].state = .popup p ∧
        switching.standbyBank.profile[(0 : HeadNo)].popup = p.menu ∧ p.menu ≠ 63 ∧
        switching.standbyBank.menu[p.menu.toNat]? = some ⟨2, 0, 4, 64, 300, 120⟩ ∧
        Bank.defaults.profile[(0 : HeadNo)].popup ≠ p.menu) ∧
      unswitched.ports[(0 : HeadNo)].trail = [] ++ [] ∧ ∀ p, unswitched.chans[(1 : HeadNo)].state ≠ .popup p) :=
  ⟨fun _ => ⟨⟨rfl, rfl⟩, rfl, rfl, rfl, rfl⟩, by decide +kernel, by decide +kernel, ⟨rfl, rfl⟩, rfl, rfl, rfl,
    ⟨_, unswitched_chans.1, by decide +kernel, by decide, by decide +kernel, by decide +kernel⟩, by decide +kernel,
    fun _ h => nomatch unswitched_chans.2.symm.trans h⟩
theorem test_witness_ValidationPassesSoundBanks :
    bank.validate = none ∧
    Bank.validate { bank with filter := bank.filter.set 2 { bank.filter[2] with level := 7 } } = some ⟨.filter, 2, none⟩ ∧
    Bank.validate { bank with ring := #v[0, 1, 2, 2, 4, 5, 0, 1] } = some ⟨.ring, 8, some (.chan 3)⟩ := by
  decide +kernel
theorem test_witness_ChannelsAreEnabledAndDisabled :
    base.Takes (hdr true) ∧ 3 < (4 : BitVec 8).toNat ∧ (3 : BitVec 8).toNat = (3 : HeadNo).val ∧
      base.chans[(3 : HeadNo)].state = .off ∧
      (let s := station (chan .held .down .released) [] []
       s.Takes (hdr false) ∧ s.chans[(0 : HeadNo)].state ≠ .off ∧ s.chans[(0 : HeadNo)].state = .held) ∧
      (let s := station (chan .gather .down .released) (List.replicate 3 (.miss 0)) []
       s.chans[(0 : HeadNo)].state = .gather ∧ s.queues[(0 : HeadNo)].length < 4) ∧
      (let s := station (chan .gather .down .released) fullQueue []
       s.chans[(0 : HeadNo)].state = .gather ∧ ¬ s.queues[(0 : HeadNo)].length < 4) ∧
      (∃ r q, (station (chan (.wait (.miss 0) .idle) .up .released) fullQueue []).chans[(0 : HeadNo)].state = .wait r q) :=
  ⟨takes, by decide, rfl, by decide, ⟨⟨⟨rfl, rfl⟩, fun h => nomatch h⟩, by decide, by decide⟩, by decide, by decide,
    _, _, rfl⟩
theorem test_witness_AbortAttemptEndsTheActivity :
    base.Takes (hdr true) ∧ 3 < (4 : BitVec 8).toNat ∧ (0 : BitVec 8).toNat = (0 : HeadNo).val ∧
      base.chans[(0 : HeadNo)].state = .off ∧
      (∀ st, (station (chan st .down .released) [] []).Takes (hdr false) ∧
        (station (chan st .down .released) [] []).chans[(0 : HeadNo)].state = st) :=
  ⟨takes, by decide, rfl, by decide, fun _ => ⟨⟨⟨rfl, rfl⟩, fun h => nomatch h⟩, rfl⟩⟩
theorem test_witness_ForceTrackBeginsATrack :
    base.Takes (hdr true) ∧ 3 < (4 : BitVec 8).toNat ∧ (0 : BitVec 8).toNat = (0 : HeadNo).val ∧
      ¬ ((base.chans[(0 : HeadNo)].state = .idle ∨ base.chans[(0 : HeadNo)].state = .held) ∧
        base.ports[(0 : HeadNo)].state = .up) ∧
      (let s := station (chan .idle .up .released) [] []
       (s.chans[(0 : HeadNo)].state = .idle ∨ s.chans[(0 : HeadNo)].state = .held) ∧
         s.ports[(0 : HeadNo)].state = .up) := ⟨takes, by decide, rfl, by decide, by decide⟩
theorem test_witness_HighlightAndPatternFlagDirectives :
    base.Takes (hdr true) ∧ 3 < (4 : BitVec 8).toNat ∧ (3 : BitVec 8).toNat = (3 : HeadNo).val ∧
      15 < (16 : BitVec 8).toNat ∧ (15 : BitVec 8).toNat = (15 : Fin 16).val := ⟨takes, by decide, rfl, by decide, rfl⟩
theorem test_witness_ReadStatusReportsTheState :
    ({ base with replies := replies 6, reserved := true } : State).TakesReplying ∧ (5 : BitVec 4) ≠ 4 ∧
      3 < (4 : BitVec 8).toNat ∧ (3 : BitVec 8).toNat = (3 : HeadNo).val := ⟨takes_replying, by decide, by decide, rfl⟩
theorem test_witness_CreditGrantAddsToTheReturnCredit :
    (∃ t, (selecting base.chans[(0 : HeadNo)]).credit ≤ 15 ∧
      exec .selection (selecting base.chans[(0 : HeadNo)]) = .next t ∧ t.credit < 1) ∧
    ((State.reset.InputOk ∧ State.reset.credit = 0) ∧
      (heldByDirective State.reset).InputOk ∧ (heldByDirective State.reset).credit = 0) :=
  ⟨⟨_, by decide, rfl, by decide +kernel⟩, ⟨.inl ⟨rfl, rfl⟩, rfl⟩, .inr (heldByDirective_ok _).1, rfl⟩
theorem test_witness_SelectionServesTheRing :
    (base.InputFree ∧ ∀ i, ¬ base.Selects i) ∧
    (let s := selecting (chan .held .down .released)
     (s.InputFree ∧ (heldByDelivery s).InputOk ∧ (heldByDirective s).InputOk) ∧
       (s.Selects 0 ∧ (heldByDelivery s).Selects 0 ∧ (heldByDirective s).Selects 0) ∧
       s.active.ring[(0 : Fin 8)].toNat = (0 : HeadNo).val ∧
       s.queues[(0 : HeadNo)] = .miss 0 :: List.replicate 3 (.miss 0) ∧ s.chans[(0 : HeadNo)].state = .held) ∧
    (let s : State := { base with replies := replies 1, credit := 1, ringPtr := 4 }
     (s.NoDirective ∧ (heldByDelivery s).NoDirective) ∧ s.Selects 4 ∧ s.active.ring[(4 : Fin 8)] = 4 ∧
       s.replies = ⟨0, 1, .done, .none⟩ :: []) ∧
    (let s : State := { base with faultPending := .replicate 12 true, credit := 15, ringPtr := 7 }
     (s.InputFree ∧ (heldByDelivery s).InputOk) ∧ s.Selects 7 ∧ s.active.ring[(7 : Fin 8)] = 5) := by
  have r4 : base.active.ring[(4 : Fin 8)] = 4 := by decide +kernel
  have r7 : base.active.ring[(7 : Fin 8)] = 5 := by decide +kernel
  refine ⟨⟨base_free, fun i h => ?_⟩,
    ⟨⟨⟨rfl, rfl⟩, .inr (heldByDelivery_ok _).1, .inr (heldByDirective_ok _).1⟩,
      ⟨selecting_selects _, selecting_selects (chan .held .down .released), held_selects _⟩, ring0, rfl, rfl⟩,
    ⟨⟨(free_ok ⟨rfl, rfl⟩).2.2, (heldByDelivery_ok _).2⟩, ⟨rfl, Nat.le_refl 1, 0, by decide, rfl,
      .inr (.inl ⟨r4, by decide⟩), ?_⟩, r4, rfl⟩,
    ⟨⟨rfl, rfl⟩, .inr (heldByDelivery_ok _).1⟩, ⟨rfl, by decide, 0, by decide, rfl,
      .inr (.inr ⟨r7, 0, by decide⟩), ?_⟩, r7⟩
  · exact absurd h.2.1 (by decide)
  · exact fun _ _ h => absurd h (Nat.not_lt_zero _)
  · exact fun _ _ h => absurd h (Nat.not_lt_zero _)

/-! ## Encodings and what every step keeps -/

theorem test_witness_ReadingUndoesWriting :
    (⟨150, .mark (.name 6 4095)⟩ : Record).wellFormed = true ∧
      (⟨0, .directive 9 true (.unknown 255 [1, 2])⟩ : Record).wellFormed = true := by decide
theorem test_witness_ImagesSurviveReadAndWrite : 1008 + 16 ≤ TableId.size .permit := by decide
/-- A head that has credit and a trail in balance. -/
theorem trailed_port : (trailed 3).ports[(0 : HeadNo)].Ok bank 0 := by
  refine ⟨rfl, ⟨[stroke [2, 1] .drawn, stroke [2, 1] .drawn], List.replicate 3 (stroke [2, 1] .sent), rfl, ?_, ?_⟩,
    by decide +kernel, by unfold HeadPort.TimerOk; decide⟩ <;> decide
/-- A machine after reset with a command waiting. -/
def waiting : State := { State.reset with pending := [.passStart 0] }
theorem step_waiting : ∃ t, step waiting = .next t := ⟨_, rfl⟩
theorem waiting_ports (n : HeadNo) : waiting.ports[n].Ok waiting.active n := by
  have h : waiting.ports[n] = HeadPort.powerOn := by revert n; decide
  have lag : ∀ b : Bank, drawnCount HeadPort.powerOn.trail ≤ b.lag n := fun b => Nat.zero_le (b.lag n)
  rw [h]
  exact ⟨rfl, ⟨[], [], rfl, fun _ h => (nomatch h), fun _ h => (nomatch h)⟩, lag _, fun _ => rfl⟩
theorem test_witness_StepsKeepTheHeadPorts :
    (∀ n : HeadNo, waiting.ports[n].Ok waiting.active n) ∧ ∃ t, step waiting = .next t :=
  ⟨waiting_ports, step_waiting⟩
theorem test_witness_StepsKeepTheReportQueues :
    (∀ n : HeadNo, QueueOk waiting.queues[n] ∧ KeptBackOk waiting.chans[n] waiting.queues[n]) ∧
      ∃ t, step waiting = .next t := by
  refine ⟨fun n => ?_, step_waiting⟩
  unfold KeptBackOk QueueOk
  have h1 : waiting.queues[n] = [] := by revert n; decide
  have h2 : waiting.chans[n].state = .off := by revert n; decide
  rw [h1, h2]
  exact ⟨⟨Nat.zero_le _, Nat.zero_le _⟩, trivial⟩
theorem test_witness_StepsKeepTheCounts :
    (waiting.RepliesOk ∧ waiting.CopyOk ∧ waiting.CountsOk ∧ ∀ n : HeadNo, waiting.trackers[n].Ok) ∧
      ∃ t, step waiting = .next t := by
  refine ⟨⟨⟨by decide, rfl⟩, by unfold State.CopyOk; decide, ⟨by decide, by decide⟩, fun n => ?_⟩, step_waiting⟩
  have h : waiting.trackers[n] = Tracker.empty := by revert n; decide
  rw [h]
  exact ⟨by decide, by decide⟩
theorem test_witness_StepsHoldTheInputForACause :
    waiting.InputOk ∧ ∃ t, step waiting = .next t := ⟨.inl ⟨rfl, rfl⟩, step_waiting⟩
theorem test_witness_StepsKeepTheCandidateTables :
    (∀ n : HeadNo, waiting.chans[n].TableOk) ∧ ∃ t, step waiting = .next t := by
  refine ⟨?_, step_waiting⟩
  unfold PenChannel.TableOk
  decide +kernel
theorem test_witness_StepsKeepTheLevels :
    (∀ n : HeadNo, waiting.chans[n].LevelsOk waiting.ports[n]) ∧ ∃ t, step waiting = .next t := by
  refine ⟨fun n => ?_, step_waiting⟩
  have h : waiting.chans[n].state = .off := by revert n; decide
  unfold PenChannel.LevelsOk
  rw [h]
  trivial
theorem test_witness_StepsKeepTheActiveBankSound :
    waiting.active.validate = none ∧ bank.validate = none ∧ ∃ t, step waiting = .next t :=
  ⟨by decide +kernel, by decide +kernel, step_waiting⟩

end Sys2Proof.Tests
end

section
/-! SUPPORT and PROOFS. The framing of passes at a free input (section 1.3): PASS-START, PASS-END and the records of the
routed kinds. -/

namespace Sys2Proof.Machine

/-! ## Records taken at a free input -/

/-- With the input free, the whole effect of a record that does not stay in hand is that of being taken. -/
theorem exec_toInstr_free {s t : State} {r : Record} (free : s.InputFree) (taken : s.takeRecord r = t)
    (done : t.inHand = none) : exec r.toInstr s = .next t := by
  rw [exec_toInstr, State.offerRecord_free r free, taken, State.closeHand_of_none done]

theorem State.takePassStart_closed {s : State} (closed : s.passState = .closed) : s.takePassStart = s.openPass := by
  unfold State.takePassStart; rw [closed]

theorem State.takePassStart_opened {s : State} (opened : s.passState = .opened) :
    s.takePassStart = (s.raise .framing).closePass.openPass := by
  unfold State.takePassStart; rw [opened]

theorem State.takePassEnd_closed {s : State} (closed : s.passState = .closed) :
    s.takePassEnd = s.raise .framing := by
  unfold State.takePassEnd; rw [closed]

theorem State.takePassEnd_opened {s : State} (opened : s.passState = .opened) : s.takePassEnd = s.closePass := by
  unfold State.takePassEnd; rw [opened]

theorem State.route_closed {s : State} (a : FileAddr) (deliver : List HeadNo → State → State)
    (closed : s.passState = .closed) : s.route a deliver = s.raise .framing := by
  unfold State.route; rw [closed]

/-- A command of a routed kind, its form being right, offers a record that is routed by the command's address. -/
theorem takeRecord_of_routedAddr {c : Instr} {a : FileAddr} (h : routedAddr? c = some a) (s : State) :
    ∃ (r : Record) (deliver : List HeadNo → State → State), r.toInstr = c ∧ s.takeRecord r = s.route a deliver := by
  cases c with
  | move _ p => cases h; exact ⟨⟨a, .beam (.move p)⟩, _, rfl, State.takeRecord_beam rfl⟩
  | draw _ p i => cases h; exact ⟨⟨a, .beam (.draw p i)⟩, _, rfl, State.takeRecord_beam rfl⟩
  | text b i chars =>
    obtain ⟨form, same⟩ := Option.ite_none_right_eq_some.1 h
    cases same
    exact ⟨⟨a, .beam (.text i chars)⟩, _, rfl, State.takeRecord_beam form⟩
  | name b l v =>
    obtain ⟨form, same⟩ := Option.ite_none_right_eq_some.1 h
    cases same
    exact ⟨⟨a, .mark (.name l v)⟩, _, rfl, State.takeRecord_mark form⟩
  | menuOpen _ m => cases h; exact ⟨⟨a, .mark (.menuOpen m)⟩, _, rfl, State.takeRecord_mark rfl⟩
  | item _ k => cases h; exact ⟨⟨a, .mark (.item k)⟩, _, rfl, State.takeRecord_mark rfl⟩
  | menuClose _ => cases h; exact ⟨⟨a, .mark .menuClose⟩, _, rfl, State.takeRecord_mark rfl⟩
  | crossSlot _ => cases h; exact ⟨⟨a, .slot .cross⟩, _, rfl, State.takeRecord_slot s a .cross⟩
  | readoutSlot _ p => cases h; exact ⟨⟨a, .slot (.readout p)⟩, _, rfl, State.takeRecord_slot s a (.readout p)⟩
  | _ => cases h

/-! ## The end of a pass leaves the input free and the pass CLOSED -/

/-- The part stands between two passes: the pass is CLOSED and the input is free. -/
structure State.BetweenPasses (s : State) : Prop where
  free : s.InputFree
  closed : s.passState = .closed

theorem State.BetweenPasses.congr {s t : State} (h : s.BetweenPasses) (hand : t.inHand = s.inHand)
    (offered : t.offered = s.offered) (pass : t.passState = s.passState) : t.BetweenPasses :=
  ⟨⟨hand.trans h.free.hand, offered.trans h.free.offered⟩, pass.trans h.closed⟩

theorem State.BetweenPasses.onDesk {s : State} (h : s.BetweenPasses) (n : HeadNo) (f : View → Desk → Desk) :
    (s.onDesk n f).BetweenPasses :=
  ⟨⟨State.putDesk_inHand_none n _ h.free.hand, (State.onDesk_offered s n f).trans h.free.offered⟩,
    (State.onDesk_passState s n f).trans h.closed⟩

/-- An event at each of the four channels keeps it. -/
theorem State.BetweenPasses.onHeads {s : State} (h : s.BetweenPasses) (f : View → Desk → Desk) :
    (allHeads.foldl (fun s n => s.onDesk n f) s).BetweenPasses :=
  List.foldlRecOn allHeads _ h fun _ ht n _ => ht.onDesk n f

theorem State.BetweenPasses.reloadFlags {s : State} (h : s.BetweenPasses) : s.reloadFlags.BetweenPasses :=
  h.congr rfl rfl rfl

theorem State.BetweenPasses.switchBanks {s : State} (h : s.BetweenPasses) : s.switchBanks.BetweenPasses := by
  unfold State.switchBanks
  refine State.BetweenPasses.reloadFlags (State.BetweenPasses.onHeads (State.BetweenPasses.onHeads ?_ _) _)
  exact h.congr rfl rfl rfl

theorem State.BetweenPasses.endSwitch {s : State} (h : s.BetweenPasses) (tag : Tag) (o : DirOutcome) (x : ReplyData) :
    (s.endSwitch tag o x).BetweenPasses := h.congr rfl rfl rfl

theorem State.BetweenPasses.attemptSwitch {s : State} (h : s.BetweenPasses) (pass : PassNo) :
    (s.attemptSwitch pass).BetweenPasses := by
  unfold State.attemptSwitch
  cases s.pendingSwitch with
  | none => exact h
  | some tag =>
    cases s.standby with
    | copying => exact h
    | incomplete => exact h.endSwitch ..
    | ready =>
      dsimp only
      cases s.standbyBank.validate with
      | some f => exact h.endSwitch ..
      | none => exact h.switchBanks.endSwitch ..

theorem State.closePass_betweenPasses {s : State} (free : s.InputFree) : s.closePass.BetweenPasses := by
  rw [State.closePass_eq free.hand]
  refine State.BetweenPasses.attemptSwitch ?_ s.passCount
  exact ⟨⟨free.hand, free.offered⟩, rfl⟩

/-! ## What the commands do at a free input -/

theorem exec_passStart_closed {s : State} (a : FileAddr) (h : s.BetweenPasses) :
    exec (.passStart a) s = .next s.openPass :=
  exec_toInstr_free (r := ⟨a, .passStart⟩) h.free (State.takePassStart_closed h.closed) h.free.hand

theorem exec_passStart_opened {s : State} (a : FileAddr) (free : s.InputFree) (opened : s.passState = .opened) :
    exec (.passStart a) s = .next (s.raise .framing).closePass.openPass := by
  have ended : (s.raise .framing).closePass.BetweenPasses :=
    State.closePass_betweenPasses ⟨free.hand, free.offered⟩
  exact exec_toInstr_free (r := ⟨a, .passStart⟩) free (State.takePassStart_opened opened) ended.free.hand

theorem exec_passEnd_closed {s : State} (a : FileAddr) (h : s.BetweenPasses) :
    exec (.passEnd a) s = .next (s.raise .framing) :=
  exec_toInstr_free (r := ⟨a, .passEnd⟩) h.free (State.takePassEnd_closed h.closed) h.free.hand

theorem exec_passEnd_opened {s : State} (a : FileAddr) (free : s.InputFree) (opened : s.passState = .opened) :
    exec (.passEnd a) s = .next s.closePass :=
  exec_toInstr_free (r := ⟨a, .passEnd⟩) free (State.takePassEnd_opened opened)
    (State.closePass_betweenPasses free).free.hand

theorem exec_routed_closed {s : State} {c : Instr} {a : FileAddr} (routed : routedAddr? c = some a)
    (h : s.BetweenPasses) : exec c s = .next (s.raise .framing) := by
  obtain ⟨r, deliver, rfl, route⟩ := takeRecord_of_routedAddr routed s
  exact exec_toInstr_free h.free (route.trans (State.route_closed a deliver h.closed)) h.free.hand

/-! ## The statements -/

/-- Settles O6: a PASS-END, and a record that would be routed, raises FRAMING when taken and leaves nothing in hand. -/
theorem closedPassRaisesFraming : Obligations.ClosedPassRaisesFraming := by
  unfold Obligations.ClosedPassRaisesFraming
  intro s free closed
  exact ⟨fun a => exec_passEnd_closed a ⟨free, closed⟩, fun _ _ routed => exec_routed_closed routed ⟨free, closed⟩⟩

/-- Settles O7: the implied PASS-END of R6 leaves the part between passes, where a PASS-START opens the pass. -/
theorem passStartOpensThePass : Obligations.PassStartOpensThePass := by
  unfold Obligations.PassStartOpensThePass
  refine ⟨fun s a free closed => exec_passStart_closed a ⟨free, closed⟩, fun s a free opened => ?_⟩
  have raised : (s.raise .framing).InputFree := ⟨free.hand, free.offered⟩
  have ended : (s.raise .framing).closePass.BetweenPasses := State.closePass_betweenPasses raised
  refine ⟨(s.raise .framing).closePass, exec_passEnd_opened a raised opened, ?_, ended.closed⟩
  rw [exec_passStart_opened a free opened, exec_passStart_closed a ended]

end Sys2Proof.Machine
end

section
/-! SUPPORT and PROOFS. Marks delivered to a destination set (sections 1.4 and 2.1 to 2.3): which heads a record reaches,
that a mark is delivered to exactly those, and the NAME and the MENU-CLOSE in each of their trackers. -/

namespace Sys2Proof.Machine

/-! ## The destination set (R10 to R12) -/

theorem Window.contains_iff (w : Window) (a : FileAddr) : w.contains a = true ↔ w.holds a := by
  simp only [Window.contains, Window.holds, Bool.and_eq_true, decide_eq_true_eq, BitVec.le_def]

theorem State.mem_windowHeads (s : State) (a : FileAddr) (n : HeadNo) :
    n ∈ s.active.windowHeads a ↔ s.covers a n := by
  simp only [Bank.windowHeads, State.covers, List.mem_filter, mem_allHeads, true_and, Bool.or_eq_true,
    Window.contains_iff]

theorem GlobalEntry.defaultHead?_eq_some (g : GlobalEntry) (n : HeadNo) :
    g.defaultHead? = some n ↔ g.defaultHead.toNat = n.val := by
  unfold GlobalEntry.defaultHead?
  split
  · exact Option.some_inj.trans Fin.ext_iff
  · next beyond => simp only [reduceCtorEq, false_iff]; omega

/-- The windows' heads, and the default head only where no window covers the address. -/
theorem State.mem_covering (s : State) (a : FileAddr) (n : HeadNo) : n ∈ s.active.covering a ↔ s.names a n := by
  unfold Bank.covering State.names
  split
  · next noWindow =>
    have uncovered : ∀ m, ¬ s.covers a m := fun m hm =>
      List.not_mem_nil (noWindow ▸ (s.mem_windowHeads a m).2 hm)
    simp only [uncovered, false_or, not_false_eq_true, implies_true, true_and, Option.mem_toList,
      GlobalEntry.defaultHead?_eq_some]
  · next someWindow =>
    obtain ⟨m, hm⟩ := List.exists_mem_of_ne_nil _ someWindow
    have covered : ¬ ∀ m, ¬ s.covers a m := fun h => h m ((s.mem_windowHeads a m).1 hm)
    simp only [s.mem_windowHeads a n, covered, false_and, or_false]

theorem State.mem_destinations (s : State) (a : FileAddr) (n : HeadNo) : n ∈ s.destinations a ↔ s.reaches a n := by
  simp only [State.destinations, State.reaches, List.mem_filter, State.mem_covering, beq_iff_eq]

/-- While the pass is OPEN, a record that reaches some head is delivered to the heads it reaches (R10 to R13). -/
theorem State.route_reached {s : State} {a : FileAddr} (deliver : List HeadNo → State → State)
    (opened : s.passState = .opened) (reached : ∃ n, s.reaches a n) :
    s.route a deliver = deliver (s.destinations a) s := by
  obtain ⟨n, hn⟩ := reached
  have covering : s.active.covering a ≠ [] := List.ne_nil_of_mem ((s.mem_covering a n).2 hn.1)
  have destinations : s.destinations a ≠ [] := List.ne_nil_of_mem ((s.mem_destinations a n).2 hn)
  unfold State.route
  rw [opened]
  dsimp only
  split
  · contradiction
  · split
    · contradiction
    · rfl

/-! ## A mark taken at a free input (R13, R19) -/

theorem State.deliverMark_inHand (s : State) (m : Mark) {hs : List HeadNo} (nodup : hs.Nodup) :
    (s.deliverMark m hs).inHand = s.inHand := by
  obtain ⟨-, -, whole⟩ := State.deliverMark_all m hs s nodup
  exact (congrArg State.inHand whole).trans (State.raiseAll_inHand ..)

/-- A mark stays in hand at no head: its whole effect is its delivery. -/
theorem exec_mark_reached {s : State} {a : FileAddr} {m : Mark} (form : Record.formOk ⟨a, .mark m⟩ = true)
    (free : s.InputFree) (opened : s.passState = .opened) (reached : ∃ n, s.reaches a n) :
    exec (Record.toInstr ⟨a, .mark m⟩) s = .next (s.deliverMark m (s.destinations a)) :=
  exec_toInstr_free free ((State.takeRecord_mark form).trans (State.route_reached _ opened reached))
    ((s.deliverMark_inHand m (s.destinations_nodup a)).trans free.hand)

/-- A mark that raises one fault of kind `k` in a tracker with the property `raises`, and none in another: the trackers
of the heads it reaches take it, each of those with the property raises the fault once, and nothing else changes. -/
theorem exec_mark_raising {s : State} {a : FileAddr} {m : Mark} (k : FaultKind) (raises : Tracker → Prop)
    [DecidablePred raises] (faults : ∀ tr : Tracker, (tr.take s.active m).2 = if raises tr then [k] else [])
    (form : Record.formOk ⟨a, .mark m⟩ = true) (free : s.InputFree) (opened : s.passState = .opened)
    (reached : ∃ n, s.reaches a n) :
    ∃ (t : State) (raisers : List HeadNo), exec (Record.toInstr ⟨a, .mark m⟩) s = .next t ∧
      (∀ n : HeadNo, ¬ s.reaches a n → t.trackers[n] = s.trackers[n]) ∧
      (∀ n : HeadNo, s.reaches a n → t.trackers[n] = (s.trackers[n].take s.active m).1) ∧
      raisers.Nodup ∧ (∀ n : HeadNo, n ∈ raisers ↔ s.reaches a n ∧ raises s.trackers[n]) ∧
      t = { (raisers.foldl (fun u _ => u.raise k) s) with trackers := t.trackers } := by
  have oneOrNone : ∀ n : HeadNo, n ∈ s.destinations a →
      (s.trackers[n].take s.active m).2 = [] ∨ (s.trackers[n].take s.active m).2 = [k] := fun n _ => by
    rw [faults]
    split
    · exact .inr rfl
    · exact .inl rfl
  have raised : ∀ tr : Tracker, (tr.take s.active m).2 = [k] ↔ raises tr := fun tr => by
    rw [faults]
    split <;> simp [*]
  obtain ⟨t, raisers, delivered, others, taken, nodup, mem, whole⟩ :=
    State.deliverMark_eq m k (s.destinations a) s (s.destinations_nodup a) oneOrNone
  simp only [State.mem_destinations, raised] at others taken mem
  exact ⟨t, raisers, delivered ▸ exec_mark_reached form free opened reached, others, taken, nodup, mem, whole⟩

/-! ## NAME and MENU-CLOSE in one tracker -/

/-- Only a NAME over a gap raises a fault (R22). -/
theorem Tracker.name_faults (t : Tracker) (l : Nat) (v : NameVal) :
    (t.name l v).2 = if t.stack.length + 1 < l then [.nameGap] else [] := by
  split
  · next gap => rw [Tracker.name_gap t l v gap]
  · next within => rw [Tracker.name_within t l v (Nat.not_lt.1 within)]

/-- A tracker outside every region hands out a name snapshot (R30). -/
theorem Tracker.snapshot_outside {t : Tracker} (h : t.region = .outside) : t.snapshot = .name t.stack t.poisoned := by
  unfold Tracker.snapshot; rw [h]

/-! ## The statements -/

/-- Settles O12: NAME raises NAME-GAP exactly where it skips levels, so each reached tracker takes it by R21 or R22. -/
theorem nameSetsItsLevelInEachTracker : Obligations.NameSetsItsLevelInEachTracker := by
  unfold Obligations.NameSetsItsLevelInEachTracker
  intro s a l v free opened level reached
  have form : Record.formOk ⟨a, .mark (.name l v)⟩ = true := decide_eq_true level
  obtain ⟨t, gaps, run, others, taken, nodup, mem, whole⟩ :=
    exec_mark_raising (m := .name l v) .nameGap (fun tr => tr.stack.length + 1 < l.toNat)
      (fun tr => tr.name_faults l.toNat v) form free opened reached
  refine ⟨t, gaps, run, others, fun n hn within => ?_, fun n hn gap => ?_, nodup, mem, whole⟩
  · exact (taken n hn).trans (congrArg Prod.fst (Tracker.name_within _ l.toNat v within))
  · exact (taken n hn).trans (congrArg Prod.fst (Tracker.name_gap _ l.toNat v gap))

/-- Settles O14: MENU-CLOSE raises MENU-FORM exactly where no region is open, and leaves every reached tracker outside,
where the snapshot is that of the name stack. -/
theorem menuCloseClosesTheRegion : Obligations.MenuCloseClosesTheRegion := by
  unfold Obligations.MenuCloseClosesTheRegion
  intro s a free opened reached
  obtain ⟨t, outside, run, others, taken, nodup, mem, whole⟩ :=
    exec_mark_raising (m := .menuClose) .menuForm (fun tr => tr.region = .outside)
      (fun tr => congrArg Prod.snd tr.menuClose_eq) rfl free opened reached
  have closed : ∀ n : HeadNo, s.reaches a n → t.trackers[n] = { s.trackers[n] with region := .outside } := fun n hn =>
    (taken n hn).trans (congrArg Prod.fst (Tracker.menuClose_eq _))
  refine ⟨t, outside, run, others, fun n hn => ⟨closed n hn, ?_⟩, nodup, mem, whole⟩
  rw [closed n hn]
  exact Tracker.snapshot_outside rfl

end Sys2Proof.Machine
end

section
/-! SUPPORT and PROOFS. Completions that retire nothing (sections 3.3 and 3.4), and RESTART-HEAD (R46) with what every
directive that replies only when asked has in common. -/

namespace Sys2Proof.Machine

/-! ## Completions that retire nothing (R41, R45) -/

theorem State.completion_down {s : State} {n : HeadNo} (down : s.ports[n].state = .down) :
    s.completion n = s.raise .lateCompletion := by
  unfold State.completion; rw [down]

theorem State.completion_stray {s : State} {n : HeadNo} (up : s.ports[n].state = .up)
    (noneSent : sentCount s.ports[n].trail = 0) : s.completion n = s.raise .strayCompletion := by
  unfold State.completion; rw [up]; exact if_pos noneSent

/-! ## Directives that reply only when asked (R16, R163) -/

theorem State.replyRoom_iff (s : State) : s.replyRoom = true ↔ s.HasReplySpace := decide_eq_true_iff

/-- A directive that replies only when asked is taken at once where `Takes` holds. -/
theorem exec_directive_taken {s : State} {h : DirHeader} {d : Directive} (takes : s.Takes h)
    (form : Record.formOk (h.record d) = true) (asked : alwaysReplies d = false) :
    exec (h.record d).toInstr s = .next (s.takeDirective h d) := by
  obtain ⟨free, space⟩ := takes
  have room : willReply h.want d = true → s.replyRoom = true := fun will =>
    s.replyRoom_iff.2 (space (by simpa [willReply, asked] using will))
  rw [exec_toInstr, State.offerRecord_directive h d free form room]

/-- The outcome of a directive that replies only when asked reaches the loft computer as `concluded` says. -/
theorem Result.conclude_eq_concluded (h : DirHeader) {d : Directive} (r : Result) (asked : alwaysReplies d = false) :
    r.conclude h d = r.state.concluded h (directiveCode d) r.outcome r.data := by
  obtain ⟨outcome, data, state⟩ := r
  unfold Result.conclude State.concluded willReply
  rw [asked, Bool.or_false]
  cases outcome <;> rfl

/-! ## The head a directive names -/

theorem headNo?_of_above {k : BitVec 8} (above : 3 < k.toNat) : headNo? k = none := dif_neg (by omega)

theorem headNo?_of_eq {k : BitVec 8} {n : HeadNo} (names : k.toNat = n.val) : headNo? k = some n :=
  (dif_pos (names ▸ n.isLt)).trans (congrArg some (Fin.ext names))

/-! ## RESTART-HEAD (R46) -/

theorem State.restartHead_above {s : State} {head : BitVec 8} (above : 3 < head.toNat) :
    s.restartHead head = .no .badChannel s := by
  unfold State.restartHead; rw [headNo?_of_above above]

theorem State.restartHead_up {s : State} {head : BitVec 8} {n : HeadNo} (names : head.toNat = n.val)
    (up : s.ports[n].state = .up) : s.restartHead head = .no .badState s := by
  unfold State.restartHead; rw [headNo?_of_eq names]; dsimp only; rw [up]

theorem State.restartHead_down {s : State} {head : BitVec 8} {n : HeadNo} (names : head.toNat = n.val)
    (down : s.ports[n].state = .down) : s.restartHead head = .ok (s.setPort n s.ports[n].restart) := by
  unfold State.restartHead; rw [headNo?_of_eq names]; dsimp only; rw [down]

/-- RESTART-HEAD taken at once ends in what `State.restartHead` answers, reported under its code. -/
theorem exec_restartHead {s : State} {h : DirHeader} {head : BitVec 8} {r : Result} (takes : s.Takes h)
    (answer : s.restartHead head = r) :
    exec (.restartHead h head) s = .next (r.state.concluded h 13 r.outcome r.data) := by
  have taken : exec (.restartHead h head) s = .next ((s.restartHead head).conclude h (.restartHead head)) :=
    exec_directive_taken (d := .restartHead head) takes rfl rfl
  rw [taken, answer, Result.conclude_eq_concluded h r rfl]
  rfl

/-! ## The statements -/

/-- Settles O20: a trail of DRAWN entries counts no SENT one, and both branches of a completion that retires nothing are
one fault notice, whatever the input holds. -/
theorem strayAndLateCompletionsOnlyCount : Obligations.StrayAndLateCompletionsOnlyCount := by
  unfold Obligations.StrayAndLateCompletionsOnlyCount
  refine ⟨fun s n up drawn => ?_, fun s n down => ?_⟩
  · exact congrArg Host.Outcome.next (State.completion_stray up (sentCount_of_drawn drawn))
  · exact congrArg Host.Outcome.next (State.completion_down down)

/-- Settles O22, by the three rows of the table of R46. -/
theorem restartHeadBringsTheHeadUp : Obligations.RestartHeadBringsTheHeadUp := by
  unfold Obligations.RestartHeadBringsTheHeadUp
  intro h head s takes
  refine ⟨fun above => ?_, fun n names => ⟨fun up => ?_, fun down => ?_⟩⟩
  · exact exec_restartHead takes (State.restartHead_above above)
  · exact exec_restartHead takes (State.restartHead_up names up)
  · exact exec_restartHead takes (State.restartHead_down names down)

end Sys2Proof.Machine
end

section
/-! SUPPORT and PROOFS. The directives that act on one Pen Channel (R176): how such a directive reaches the channel's
desk, and ENABLE-CHANNEL (R66) and DISABLE-CHANNEL (R67). -/

namespace Sys2Proof.Machine

/-! ## A desk put back at a free input -/

theorem State.putDesk_desk (s : State) (n : HeadNo) : s.putDesk n (s.desk n) = s :=
  State.onDesk_same (f := fun _ d => d) rfl

/-- With nothing in hand, no delivery ends when a channel leaves POPUP (R113): channel and queue alone move. -/
theorem State.putDesk_chan_queue {s : State} (free : s.inHand = none) (n : HeadNo) (c : PenChannel)
    (q : List ChannelReport) :
    s.putDesk n { s.desk n with chan := c, queue := q } = (s.withChan n c).withQueue n q :=
  State.onDesk_within (f := fun _ d => { d with chan := c, queue := q }) rfl (.inr (.inr free))

theorem State.putDesk_chan {s : State} (free : s.inHand = none) (n : HeadNo) (c : PenChannel) :
    s.putDesk n { s.desk n with chan := c } = s.withChan n c :=
  State.onDesk_chan (f := fun _ d => { d with chan := c }) rfl (.inr (.inr free))

/-! ## A directive passed to the channel it names (R176) -/

theorem State.toChannel_above {s : State} {ch : BitVec 8} {f : View → Desk → DirOutcome × ReplyData × Desk}
    (above : 3 < ch.toNat) : s.toChannel ch f = .no .badChannel s := by
  unfold State.toChannel; rw [headNo?_of_above above]

theorem State.toChannel_named {s : State} {ch : BitVec 8} {n : HeadNo}
    {f : View → Desk → DirOutcome × ReplyData × Desk} {o : DirOutcome} {x : ReplyData} {d : Desk}
    (names : ch.toNat = n.val) (answer : f (s.view n) (s.desk n) = (o, x, d)) :
    s.toChannel ch f = ⟨o, x, s.putDesk n d⟩ := by
  unfold State.toChannel; rw [headNo?_of_eq names]; dsimp only; rw [answer]

/-- A channel that refuses leaves the part as it stands (R163). -/
theorem State.toChannel_refused {s : State} {ch : BitVec 8} {n : HeadNo} {r : Reason}
    {f : View → Desk → DirOutcome × ReplyData × Desk} (names : ch.toNat = n.val)
    (answer : f (s.view n) (s.desk n) = (.refused r, .none, s.desk n)) : s.toChannel ch f = .no r s := by
  rw [State.toChannel_named names answer, State.putDesk_desk]; rfl

/-- A channel that answers by changing itself alone. -/
theorem State.toChannel_chan {s : State} {ch : BitVec 8} {n : HeadNo} {o : DirOutcome} {x : ReplyData} {c : PenChannel}
    {f : View → Desk → DirOutcome × ReplyData × Desk} (free : s.inHand = none) (names : ch.toNat = n.val)
    (answer : f (s.view n) (s.desk n) = (o, x, { s.desk n with chan := c })) :
    s.toChannel ch f = ⟨o, x, s.withChan n c⟩ := by
  rw [State.toChannel_named names answer, State.putDesk_chan free]

/-- A directive that replies only when asked, taken at once, ends in the result it comes to, reported under its code
(R163). -/
theorem exec_directive_concluded {s : State} {h : DirHeader} {d : Directive} {r : Result} (takes : s.Takes h)
    (form : Record.formOk (h.record d) = true) (asked : alwaysReplies d = false)
    (answer : s.takeDirective h d = r.conclude h d) :
    exec (h.record d).toInstr s = .next (r.state.concluded h (directiveCode d) r.outcome r.data) := by
  rw [exec_directive_taken takes form asked, answer, Result.conclude_eq_concluded h r asked]

/-! ## ENABLE-CHANNEL (R66) -/

theorem enableChannel_off {v : View} {d : Desk} (off : d.chan.state = .off) :
    enableChannel v d = (.done, { d with chan :=
      { d.chan.emptied with state := .idle, highlight := none, filterSet := v.profile.initFilter } }) := by
  unfold enableChannel; rw [off]; rfl

theorem enableChannel_on {v : View} {d : Desk} (on : d.chan.state ≠ .off) :
    enableChannel v d = (.refused .badState, d) := by
  unfold enableChannel
  split
  · next off => exact absurd off on
  · rfl

theorem State.enableChannel_on {s : State} {ch : BitVec 8} {n : HeadNo} (names : ch.toNat = n.val)
    (on : s.chans[n].state ≠ .off) : s.enableChannel ch = .no .badState s :=
  State.toChannel_refused names (by rw [Machine.enableChannel_on on])

theorem State.enableChannel_off {s : State} {ch : BitVec 8} {n : HeadNo} (free : s.inHand = none)
    (names : ch.toNat = n.val) (off : s.chans[n].state = .off) :
    s.enableChannel ch = .ok (s.withChan n
      { s.chans[n].emptied with
        state := .idle, highlight := none, filterSet := s.active.profile[n].initFilter }) :=
  State.toChannel_chan free names (by rw [Machine.enableChannel_off off]; rfl)

theorem exec_enableChannel {s : State} {h : DirHeader} {ch : BitVec 8} {r : Result} (takes : s.Takes h)
    (answer : s.enableChannel ch = r) :
    exec (.enableChannel h ch) s = .next (r.state.concluded h 7 r.outcome r.data) :=
  exec_directive_concluded (d := .enableChannel ch) takes rfl rfl (answer ▸ rfl)

/-! ## DISABLE-CHANNEL (R67) -/

/-- The states in which a DISABLE-CHANNEL aborts what the channel is doing: GATHER, TRACK and POPUP (R67). -/
def ChanState.Busy (c : ChanState) : Prop := c = .gather ∨ (∃ t, c = .track t) ∨ ∃ p, c = .popup p

theorem disableChannel_off {d : Desk} (off : d.chan.state = .off) :
    disableChannel d = (.refused .badState, .none, d) := by
  unfold disableChannel; rw [off]

theorem disableChannel_quiet {d : Desk} (quiet : d.chan.state = .idle ∨ d.chan.state = .held) :
    disableChannel d = (.done, .disposition .none, { d with chan := d.chan.disable }) := by
  unfold disableChannel
  rcases quiet with idle | held
  · rw [idle]
  · rw [held]

theorem disableChannel_wait {d : Desk} (wait : ∃ r succ, d.chan.state = .wait r succ) :
    disableChannel d = (.done, .disposition .heldDiscarded, { d with chan := d.chan.disable }) := by
  obtain ⟨r, succ, wait⟩ := wait
  unfold disableChannel; rw [wait]

/-- What a busy channel was doing ends in ABORTED (DISABLED), queued where the queue has a place and lost where not. -/
theorem disableChannel_busy {d : Desk} (busy : d.chan.state.Busy) :
    disableChannel d =
      if d.room then
        (.done, .disposition .abortedQueued,
          { d with chan := d.chan.disable, queue := d.queue ++ [.aborted .disabled] })
      else (.done, .disposition .abortedLost, { d with chan := d.chan.disable }) := by
  unfold disableChannel
  rcases busy with gather | ⟨t, track⟩ | ⟨p, popup⟩
  · rw [gather]
  · rw [track]
  · rw [popup]

theorem State.disableChannel_off {s : State} {ch : BitVec 8} {n : HeadNo} (names : ch.toNat = n.val)
    (off : s.chans[n].state = .off) : s.disableChannel ch = .no .badState s :=
  State.toChannel_refused names (Machine.disableChannel_off off)

theorem State.disableChannel_quiet {s : State} {ch : BitVec 8} {n : HeadNo} (free : s.inHand = none)
    (names : ch.toNat = n.val) (quiet : s.chans[n].state = .idle ∨ s.chans[n].state = .held) :
    s.disableChannel ch = ⟨.done, .disposition .none, s.withChan n s.chans[n].disable⟩ :=
  State.toChannel_chan free names (Machine.disableChannel_quiet quiet)

theorem State.disableChannel_wait {s : State} {ch : BitVec 8} {n : HeadNo} (free : s.inHand = none)
    (names : ch.toNat = n.val) (wait : ∃ r succ, s.chans[n].state = .wait r succ) :
    s.disableChannel ch = ⟨.done, .disposition .heldDiscarded, s.withChan n s.chans[n].disable⟩ :=
  State.toChannel_chan free names (Machine.disableChannel_wait wait)

theorem State.disableChannel_busy_room {s : State} {ch : BitVec 8} {n : HeadNo} (free : s.inHand = none)
    (names : ch.toNat = n.val) (busy : s.chans[n].state.Busy) (room : s.queues[n].length < 4) :
    s.disableChannel ch = ⟨.done, .disposition .abortedQueued,
      (s.withChan n s.chans[n].disable).withQueue n (s.queues[n] ++ [.aborted .disabled])⟩ := by
  have answer := (Machine.disableChannel_busy (d := s.desk n) busy).trans (if_pos (decide_eq_true room))
  exact (State.toChannel_named names answer).trans (by rw [State.putDesk_chan_queue free]; rfl)

theorem State.disableChannel_busy_full {s : State} {ch : BitVec 8} {n : HeadNo} (free : s.inHand = none)
    (names : ch.toNat = n.val) (busy : s.chans[n].state.Busy) (full : ¬ s.queues[n].length < 4) :
    s.disableChannel ch = ⟨.done, .disposition .abortedLost, s.withChan n s.chans[n].disable⟩ := by
  have answer := (Machine.disableChannel_busy (d := s.desk n) busy).trans
    (if_neg fun room => full (of_decide_eq_true room))
  exact State.toChannel_chan free names answer

theorem exec_disableChannel {s : State} {h : DirHeader} {ch : BitVec 8} {r : Result} (takes : s.Takes h)
    (answer : s.disableChannel ch = r) :
    exec (.disableChannel h ch) s = .next (r.state.concluded h 8 r.outcome r.data) :=
  exec_directive_concluded (d := .disableChannel ch) takes rfl rfl (answer ▸ rfl)

/-! ## The statement -/

/-- Settles O44, by the number a directive names and the state the channel stands in; `Takes` gives the free input at
which a channel that leaves POPUP ends no delivery. -/
theorem channelsAreEnabledAndDisabled : Obligations.ChannelsAreEnabledAndDisabled := by
  unfold Obligations.ChannelsAreEnabledAndDisabled
  refine ⟨fun h ch s takes => ⟨fun above => ?_, fun n names => ⟨fun on => ?_, fun off => ?_⟩⟩,
    fun h ch s takes => ⟨fun above => ?_, fun n names => ⟨fun off => ?_, fun quiet => ?_, fun busy room => ?_,
      fun busy full => ?_, fun wait => ?_⟩⟩⟩
  · exact exec_enableChannel takes (State.toChannel_above above)
  · exact exec_enableChannel takes (State.enableChannel_on names on)
  · exact exec_enableChannel takes (State.enableChannel_off takes.1.hand names off)
  · exact exec_disableChannel takes (State.toChannel_above above)
  · exact exec_disableChannel takes (State.disableChannel_off names off)
  · exact exec_disableChannel takes (State.disableChannel_quiet takes.1.hand names quiet)
  · exact exec_disableChannel takes (State.disableChannel_busy_room takes.1.hand names busy room)
  · exact exec_disableChannel takes (State.disableChannel_busy_full takes.1.hand names busy full)
  · exact exec_disableChannel takes (State.disableChannel_wait takes.1.hand names wait)

end Sys2Proof.Machine
end

section
/-! SUPPORT and PROOFS. The directives on the tables and the banks (sections 10.3 to 10.6): what every directive that
always replies has in common, WRITE-TABLE (R165), READ-TABLE (R166), SWITCH-BANK (R170) and CANCEL-SWITCH (R171). -/

namespace Sys2Proof.Machine

/-! ## Directives that always reply, and a directive that waits for its space (R16, R163) -/

/-- A directive that always replies is taken at once where `TakesReplying` holds, whatever its want-reply flag. -/
theorem exec_directive_taken_replying {s : State} {h : DirHeader} {d : Directive} (takes : s.TakesReplying)
    (form : Record.formOk (h.record d) = true) : exec (h.record d).toInstr s = .next (s.takeDirective h d) := by
  obtain ⟨free, space⟩ := takes
  rw [exec_toInstr, State.offerRecord_directive h d free form fun _ => s.replyRoom_iff.2 space]

/-- A directive that always replies ends in a REPLY, refused or done. -/
theorem Result.conclude_eq_replying (h : DirHeader) {d : Directive} (r : Result) (always : alwaysReplies d = true) :
    r.conclude h d = r.state.replying h (directiveCode d) r.outcome r.data := by
  have will : willReply h.want d = true := by rw [willReply, always, Bool.or_true]
  exact if_pos will

/-- A directive that always replies, taken at once, ends in a REPLY with the result it comes to. -/
theorem exec_directive_replying {s : State} {h : DirHeader} {d : Directive} {r : Result} (takes : s.TakesReplying)
    (form : Record.formOk (h.record d) = true) (always : alwaysReplies d = true)
    (answer : s.takeDirective h d = r.conclude h d) :
    exec (h.record d).toInstr s = .next (r.state.replying h (directiveCode d) r.outcome r.data) := by
  rw [exec_directive_taken_replying takes form, answer, Result.conclude_eq_replying h r always]

/-- A directive that is to reply waits in hand while the reply queue has no space for it. -/
theorem exec_directive_waits {s : State} {h : DirHeader} {d : Directive} (free : s.InputFree)
    (form : Record.formOk (h.record d) = true) (will : willReply h.want d = true) (full : ¬ s.HasReplySpace) :
    exec (h.record d).toInstr s = .next { s with inHand := some (.directive h d) } := by
  have noRoom : s.replyRoom = false := Bool.eq_false_iff.2 fun room => full (s.replyRoom_iff.1 room)
  rw [exec_toInstr, State.offerRecord_directive_waits h d free form will noRoom]

/-! ## The entry range of WRITE-TABLE and READ-TABLE (R165, R166) -/

/-- The range test of BAD-INDEX, said by what fails it: a count of 0, one above 16, or a last entry past the table. -/
theorem rangeOk_iff {t : TableId} {first : Word} {count : BitVec 5} :
    rangeOk t first count = true ↔
      ¬ (count.toNat = 0 ∨ 16 < count.toNat ∨ t.size < first.toNat + count.toNat) := by
  unfold rangeOk Config.maxEntries
  rw [decide_eq_true_iff]
  omega

/-! ## WRITE-TABLE (R165): its tests in their order -/

section
variable {s : State} {bank : BankId} {table : BitVec 4} {first : Word} {count : BitVec 5} {images : List Word}
  {t : TableId}

theorem State.writeTable_noTable (unnamed : TableId.ofCode table = none) :
    s.writeTable bank table first count images = .no .badTable s := by
  unfold State.writeTable; rw [unnamed]

theorem State.writeTable_active (named : TableId.ofCode table = some t) (active : bank = s.selector) :
    s.writeTable bank table first count images = .no .activeBank s := by
  unfold State.writeTable; rw [named]; exact if_pos active

theorem State.writeTable_copying (named : TableId.ofCode table = some t) (standby : bank ≠ s.selector)
    (copying : s.standby = .copying) : s.writeTable bank table first count images = .no .busy s := by
  unfold State.writeTable; rw [named]; exact (if_neg standby).trans (if_pos copying)

theorem State.writeTable_outside (named : TableId.ofCode table = some t) (standby : bank ≠ s.selector)
    (still : s.standby ≠ .copying) (outside : rangeOk t first count ≠ true) :
    s.writeTable bank table first count images = .no .badIndex s := by
  unfold State.writeTable; rw [named]; exact (if_neg standby).trans ((if_neg still).trans (if_neg outside))

theorem State.writeTable_within (named : TableId.ofCode table = some t) (standby : bank ≠ s.selector)
    (still : s.standby ≠ .copying) (within : rangeOk t first count = true) :
    s.writeTable bank table first count images =
      .ok (s.setStandbyBank (s.standbyBank.writeAll t first.toNat count.toNat images)) := by
  unfold State.writeTable; rw [named]; exact (if_neg standby).trans ((if_neg still).trans (if_pos within))

/-- Images that fill the words a WRITE-TABLE requires (R194) give its record the right form (R3). -/
theorem formOk_writeTable (h : DirHeader) (form : imagesWellFormed table count images = true) :
    Record.formOk (h.record (.writeTable bank table first count images)) = true := by
  unfold imagesWellFormed at form
  rw [imageWords_eq] at form
  unfold Record.formOk DirHeader.record
  dsimp only
  cases named : TableId.ofCode table with
  | none => rfl
  | some t =>
    rw [named] at form
    exact (Bool.and_eq_true_iff.1 form).1

theorem exec_writeTable {h : DirHeader} {r : Result} (takes : s.Takes h)
    (form : imagesWellFormed table count images = true)
    (answer : s.writeTable bank table first count images = r) :
    exec (.writeTable h bank table first count images) s = .next (r.state.concluded h 1 r.outcome r.data) :=
  exec_directive_concluded (d := .writeTable bank table first count images) takes (formOk_writeTable h form) rfl
    (answer ▸ rfl)

/-! ## READ-TABLE (R166): its tests in their order -/

theorem State.readTable_noTable (unnamed : TableId.ofCode table = none) :
    s.readTable bank table first count = .no .badTable s := by
  unfold State.readTable; rw [unnamed]

theorem State.readTable_copying (named : TableId.ofCode table = some t)
    (copying : bank ≠ s.selector ∧ s.standby = .copying) : s.readTable bank table first count = .no .busy s := by
  unfold State.readTable; rw [named]; exact if_pos copying

theorem State.readTable_outside (named : TableId.ofCode table = some t)
    (still : ¬ (bank ≠ s.selector ∧ s.standby = .copying)) (outside : rangeOk t first count ≠ true) :
    s.readTable bank table first count = .no .badIndex s := by
  unfold State.readTable; rw [named]; exact (if_neg still).trans (if_neg outside)

theorem State.readTable_within (named : TableId.ofCode table = some t)
    (still : ¬ (bank ≠ s.selector ∧ s.standby = .copying)) (within : rangeOk t first count = true) :
    s.readTable bank table first count =
      ⟨.done,
        .table bank (decide (bank = s.selector)) s.standby ((s.bank bank).images t first.toNat count.toNat), s⟩ := by
  unfold State.readTable; rw [named]; exact (if_neg still).trans (if_pos within)

theorem exec_readTable {h : DirHeader} {r : Result} (takes : s.TakesReplying)
    (answer : s.readTable bank table first count = r) :
    exec (.readTable h bank table first count) s = .next (r.state.replying h 2 r.outcome r.data) :=
  exec_directive_replying (d := .readTable bank table first count) takes rfl rfl (answer ▸ rfl)

end

/-! ## SWITCH-BANK (R170) and CANCEL-SWITCH (R171) -/

theorem State.switchBank_idle {s : State} (tag : Tag) (idle : s.pendingSwitch = none) :
    s.switchBank tag = { s with pendingSwitch := some tag, reserved := true } := by
  unfold State.switchBank; rw [idle]

theorem State.switchBank_pending {s : State} (tag : Tag) (pending : s.pendingSwitch ≠ none) :
    s.switchBank tag = s.addReply ⟨tag, switchCode, .refused .switchPending, .none⟩ := by
  obtain ⟨first, pending⟩ := Option.ne_none_iff_exists'.1 pending
  unfold State.switchBank; rw [pending]

theorem State.cancelSwitch_idle {s : State} (idle : s.pendingSwitch = none) :
    s.cancelSwitch = .no .notPending s := by
  unfold State.cancelSwitch; rw [idle]

theorem State.cancelSwitch_pending {s : State} (pending : s.pendingSwitch ≠ none) :
    s.cancelSwitch = .ok { s with pendingSwitch := none, reserved := false } := by
  obtain ⟨tag, pending⟩ := Option.ne_none_iff_exists'.1 pending
  unfold State.cancelSwitch; rw [pending]

/-- SWITCH-BANK makes its reply itself, or none yet. -/
theorem exec_switchBank {s : State} (h : DirHeader) (takes : s.TakesReplying) :
    exec (.switchBank h) s = .next (s.switchBank h.tag) :=
  exec_directive_taken_replying (d := .switchBank) takes rfl

theorem exec_cancelSwitch {s : State} {h : DirHeader} {r : Result} (takes : s.Takes h)
    (answer : s.cancelSwitch = r) :
    exec (.cancelSwitch h) s = .next (r.state.concluded h 6 r.outcome r.data) :=
  exec_directive_concluded (d := .cancelSwitch) takes rfl rfl (answer ▸ rfl)

/-! ## The statements -/

/-- Settles O38, by the tests of R165 in their order; that the range alone is written is `Bank.image_writeAll`. -/
theorem writeTableWritesTheStandby : Obligations.WriteTableWritesTheStandby := by
  unfold Obligations.WriteTableWritesTheStandby
  refine ⟨fun h bank table first count images s takes form => ?_, Bank.image_writeAll⟩
  cases named : TableId.ofCode table with
  | none => exact exec_writeTable takes form (State.writeTable_noTable named)
  | some t =>
    dsimp only
    split_ifs with active copying outside
    · exact exec_writeTable takes form (State.writeTable_active named active)
    · exact exec_writeTable takes form (State.writeTable_copying named active copying)
    · exact exec_writeTable takes form
        (State.writeTable_outside named active copying fun within => rangeOk_iff.1 within outside)
    · exact exec_writeTable takes form (State.writeTable_within named active copying (rangeOk_iff.2 outside))

/-- Settles O39, by the tests of R166 in their order; a bank is read while it is active, or standby and not COPYING. -/
theorem readTableReportsTheImages : Obligations.ReadTableReportsTheImages := by
  unfold Obligations.ReadTableReportsTheImages
  intro h bank table first count s takes
  cases named : TableId.ofCode table with
  | none => exact exec_readTable takes (State.readTable_noTable named)
  | some t =>
    dsimp only
    split_ifs with copying outside
    · exact exec_readTable takes (State.readTable_copying named copying)
    · exact exec_readTable takes
        (State.readTable_outside named copying fun within => rangeOk_iff.1 within outside)
    · rw [exec_readTable takes (State.readTable_within named copying (rangeOk_iff.2 outside))]
      cases bank <;> rfl

/-- Settles O41, by whether a switch is pending; a CANCEL-SWITCH that is to reply is held at a full reply queue (R16). -/
theorem switchIsRequestedOrWithdrawn : Obligations.SwitchIsRequestedOrWithdrawn := by
  unfold Obligations.SwitchIsRequestedOrWithdrawn
  refine ⟨fun h s takes => ?_, fun h s takes => ?_, fun h s free want full => ?_⟩
  · rw [exec_switchBank h takes]
    split_ifs with idle
    · rw [State.switchBank_idle h.tag idle]
    · rw [State.switchBank_pending h.tag idle]; rfl
  · split_ifs with idle
    · exact exec_cancelSwitch takes (State.cancelSwitch_idle idle)
    · exact exec_cancelSwitch takes (State.cancelSwitch_pending idle)
  · exact exec_directive_waits (d := .cancelSwitch) free rfl (by rw [willReply, want, Bool.true_or]) full

end Sys2Proof.Machine
end

section
/-! SUPPORT and PROOFS. The return credit (section 11.5): that no event but a credit grant, the end of a transmission, a
selection and power-on reset reaches the return link, and what each of those does to the credit. -/

namespace Sys2Proof.Machine

/-! ## What leaves the return link alone -/

/-- The return link as the part stands: its credit (R188) and what is being sent on it (R189). -/
def State.returnLink (s : State) : Nat × Link := (s.credit, s.link)

section
variable (s : State)

@[simp] theorem State.onDesk_returnLink (n : HeadNo) (f : View → Desk → Desk) :
    (s.onDesk n f).returnLink = s.returnLink := rfl

@[simp] theorem State.raiseAll_returnLink (ks : List FaultKind) : (s.raiseAll ks).returnLink = s.returnLink :=
  Prod.ext (s.raiseAll_credit ks) (s.raiseAll_link ks)

@[simp] theorem State.setStandbyBank_returnLink (b : Bank) : (s.setStandbyBank b).returnLink = s.returnLink :=
  Prod.ext (s.setStandbyBank_credit b) (s.setStandbyBank_link b)

@[simp] theorem State.reloadFlags_returnLink : s.reloadFlags.returnLink = s.returnLink := rfl

@[simp] theorem State.endSwitch_returnLink (tag : Tag) (o : DirOutcome) (x : ReplyData) :
    (s.endSwitch tag o x).returnLink = s.returnLink := rfl

/-- What leaves the return link alone at one head leaves it alone at each head of a list. -/
theorem State.foldl_returnLink {f : State → HeadNo → State} (keeps : ∀ t n, (f t n).returnLink = t.returnLink)
    (hs : List HeadNo) : (hs.foldl f s).returnLink = s.returnLink := by
  induction hs generalizing s with
  | nil => rfl
  | cons n hs ih => exact (ih (f s n)).trans (keeps s n)

/-! ## Passes, deliveries and the bank switch -/

theorem State.switchBanks_returnLink : s.switchBanks.returnLink = s.returnLink := by
  have atChannels (t : State) (f : View → Desk → Desk) :
      (allHeads.foldl (fun s n => s.onDesk n f) t).returnLink = t.returnLink :=
    t.foldl_returnLink (fun u n => u.onDesk_returnLink n f) allHeads
  unfold State.switchBanks
  dsimp only
  rw [State.reloadFlags_returnLink, atChannels, atChannels]
  rfl

theorem State.attemptSwitch_returnLink (pass : PassNo) : (s.attemptSwitch pass).returnLink = s.returnLink := by
  unfold State.attemptSwitch
  cases s.pendingSwitch with
  | none => rfl
  | some tag =>
    cases s.standby with
    | copying => rfl
    | incomplete => rfl
    | ready =>
      dsimp only
      cases s.standbyBank.validate with
      | some f => rfl
      | none => exact (State.endSwitch_returnLink ..).trans s.switchBanks_returnLink

theorem State.closePass_returnLink : s.closePass.returnLink = s.returnLink := by
  have counted (t : State) :
      ({ t with passCount := t.passCount + 1 }.attemptSwitch s.passCount).returnLink = t.returnLink :=
    State.attemptSwitch_returnLink _ s.passCount
  unfold State.closePass
  dsimp only
  rw [counted]
  exact State.foldl_returnLink { s with passState := .closed } (fun t n => t.onDesk_returnLink n _) allHeads

theorem State.takePassStart_returnLink : s.takePassStart.returnLink = s.returnLink := by
  cases pass : s.passState with
  | closed => rw [State.takePassStart_closed pass]; rfl
  | opened => rw [State.takePassStart_opened pass]; exact (s.raise .framing).closePass_returnLink

theorem State.takePassEnd_returnLink : s.takePassEnd.returnLink = s.returnLink := by
  cases pass : s.passState with
  | closed => rw [State.takePassEnd_closed pass]; rfl
  | opened => rw [State.takePassEnd_opened pass]; exact s.closePass_returnLink

theorem State.pumpHead_returnLink (n : HeadNo) : (s.pumpHead n).returnLink = s.returnLink := by
  unfold State.pumpHead
  split <;> rfl

theorem State.deliver_returnLink (r : Record) (prep : HeadNo → List Prepared) (hs : List HeadNo) :
    (s.deliver r prep hs).returnLink = s.returnLink := by
  rw [State.deliver_eq]; rfl

theorem State.markAt_returnLink (m : Mark) (n : HeadNo) : (s.markAt m n).returnLink = s.returnLink :=
  State.raiseAll_returnLink _ _

theorem State.deliverMark_returnLink (m : Mark) (hs : List HeadNo) :
    (s.deliverMark m hs).returnLink = s.returnLink :=
  s.foldl_returnLink (fun t n => t.markAt_returnLink m n) hs

theorem State.route_returnLink (a : FileAddr) {deliver : List HeadNo → State → State}
    (keeps : ∀ hs, (deliver hs s).returnLink = s.returnLink) : (s.route a deliver).returnLink = s.returnLink := by
  unfold State.route
  cases s.passState with
  | closed => rfl
  | opened =>
    dsimp only
    cases s.active.covering a with
    | nil => rfl
    | cons => cases s.destinations a with
      | nil => rfl
      | cons n hs => exact keeps (n :: hs)

/-! ## Directives -/

theorem Result.conclude_returnLink (h : DirHeader) (d : Directive) (r : Result) :
    (r.conclude h d).returnLink = r.state.returnLink := by
  unfold Result.conclude
  split
  · rfl
  · cases r.outcome <;> rfl

theorem State.toChannel_returnLink (ch : BitVec 8) (f : View → Desk → DirOutcome × ReplyData × Desk) :
    (s.toChannel ch f).state.returnLink = s.returnLink := by
  unfold State.toChannel
  cases headNo? ch <;> rfl

theorem State.writeTable_returnLink (bank : BankId) (table : BitVec 4) (first : Word) (count : BitVec 5)
    (images : List Word) : (s.writeTable bank table first count images).state.returnLink = s.returnLink := by
  unfold State.writeTable
  cases TableId.ofCode table with
  | none => rfl
  | some t =>
    dsimp only
    split_ifs
    · rfl
    · rfl
    · exact s.setStandbyBank_returnLink _
    · rfl

theorem State.readTable_returnLink (bank : BankId) (table : BitVec 4) (first : Word) (count : BitVec 5) :
    (s.readTable bank table first count).state.returnLink = s.returnLink := by
  unfold State.readTable
  cases TableId.ofCode table with
  | none => rfl
  | some t => dsimp only; split_ifs <;> rfl

theorem State.copyBank_returnLink : s.copyBank.state.returnLink = s.returnLink := by
  unfold State.copyBank
  split_ifs <;> rfl

theorem State.clearBank_returnLink : s.clearBank.state.returnLink = s.returnLink := by
  unfold State.clearBank
  split_ifs
  · rfl
  · exact s.setStandbyBank_returnLink _

theorem State.switchBank_returnLink (tag : Tag) : (s.switchBank tag).returnLink = s.returnLink := by
  unfold State.switchBank
  cases s.pendingSwitch <;> rfl

theorem State.cancelSwitch_returnLink : s.cancelSwitch.state.returnLink = s.returnLink := by
  unfold State.cancelSwitch
  cases s.pendingSwitch <;> rfl

theorem State.setPatternFlag_returnLink (on : Bool) (pattern : BitVec 8) :
    (s.setPatternFlag on pattern).state.returnLink = s.returnLink := by
  unfold State.setPatternFlag
  split_ifs <;> rfl

theorem State.restartHead_returnLink (head : BitVec 8) : (s.restartHead head).state.returnLink = s.returnLink := by
  unfold State.restartHead
  cases headNo? head with
  | none => rfl
  | some n => dsimp only; cases s.ports[n].state <;> rfl

theorem State.readChannel_returnLink (n : BitVec 8) : (s.readChannel n).state.returnLink = s.returnLink := by
  unfold State.readChannel
  cases headNo? n <;> rfl

theorem State.readHead_returnLink (n : BitVec 8) : (s.readHead n).state.returnLink = s.returnLink := by
  unfold State.readHead
  cases headNo? n <;> rfl

theorem State.readPass_returnLink (item : BitVec 4) : (s.readPass item).state.returnLink = s.returnLink := by
  unfold State.readPass
  split_ifs <;> rfl

/-- No directive reaches the return link; the soft reset keeps its credit and its transmission (R193). -/
theorem State.takeDirective_returnLink (h : DirHeader) (d : Directive) :
    (s.takeDirective h d).returnLink = s.returnLink := by
  cases d with
  | switchBank => exact s.switchBank_returnLink h.tag
  | writeTable => exact (Result.conclude_returnLink ..).trans (s.writeTable_returnLink ..)
  | readTable => exact (Result.conclude_returnLink ..).trans (s.readTable_returnLink ..)
  | copyBank => exact (Result.conclude_returnLink ..).trans s.copyBank_returnLink
  | clearBank => exact (Result.conclude_returnLink ..).trans s.clearBank_returnLink
  | cancelSwitch => exact (Result.conclude_returnLink ..).trans s.cancelSwitch_returnLink
  | setPatternFlag => exact (Result.conclude_returnLink ..).trans (s.setPatternFlag_returnLink ..)
  | restartHead => exact (Result.conclude_returnLink ..).trans (s.restartHead_returnLink _)
  | readChannel => exact (Result.conclude_returnLink ..).trans (s.readChannel_returnLink _)
  | readHead => exact (Result.conclude_returnLink ..).trans (s.readHead_returnLink _)
  | readPass => exact (Result.conclude_returnLink ..).trans (s.readPass_returnLink _)
  | enableChannel | disableChannel | abortAttempt | forceTrack | clearHighlight =>
    exact (Result.conclude_returnLink ..).trans (s.toChannel_returnLink ..)
  | readFaults | readFaultsClear | readBanks | restart | unknown => exact Result.conclude_returnLink ..

/-! ## Records taken, and the end of a hold -/

theorem State.takeRecord_returnLink (r : Record) : (s.takeRecord r).returnLink = s.returnLink := by
  unfold State.takeRecord
  split_ifs
  · cases r.body with
    | malformed => rfl
    | passStart => exact s.takePassStart_returnLink
    | passEnd => exact s.takePassEnd_returnLink
    | beam b => exact s.route_returnLink r.addr (s.deliver_returnLink r _)
    | slot k => exact s.route_returnLink r.addr (s.deliver_returnLink r _)
    | mark m => exact s.route_returnLink r.addr (s.deliverMark_returnLink m)
    | directive tag want d =>
      dsimp only
      unfold State.handOver
      split_ifs
      · rfl
      · exact s.takeDirective_returnLink _ d
  · rfl

theorem State.closeHand_returnLink : s.closeHand.returnLink = s.returnLink := by
  unfold State.closeHand
  cases s.inHand with
  | none => rfl
  | some held => cases held with
    | deliver r w => dsimp only; split_ifs <;> rfl
    | directive h d =>
      dsimp only
      split_ifs
      · exact State.takeDirective_returnLink _ h d
      · rfl

theorem State.settle_returnLink : s.settle.returnLink = s.returnLink :=
  State.settle_keeps (P := fun t => t.returnLink = s.returnLink)
    (fun t r ht _ => (t.takeRecord_returnLink r).trans ht) (fun t ht => t.closeHand_returnLink.trans ht)
    (fun _ _ ht => ht) rfl

theorem State.offerRecord_returnLink (r : Record) : (s.offerRecord r).returnLink = s.returnLink :=
  State.settle_returnLink _

/-! ## The events of the heads, the pens and the copy operation -/

theorem State.completion_returnLink (n : HeadNo) : (s.completion n).returnLink = s.returnLink := by
  unfold State.completion
  cases s.ports[n].state with
  | down => rfl
  | up =>
    dsimp only
    split_ifs
    · rfl
    · exact (State.settle_returnLink _).trans (State.pumpHead_returnLink _ n)

theorem State.stallExpiry_returnLink (n : HeadNo) : (s.stallExpiry n).returnLink = s.returnLink := by
  unfold State.stallExpiry
  split
  · exact State.settle_returnLink _
  · rfl

theorem State.copyMove_returnLink : s.copyMove.returnLink = s.returnLink := by
  unfold State.copyMove
  cases s.copyPos with
  | none => rfl
  | some t => dsimp only; cases t.next? <;> exact s.setStandbyBank_returnLink _

/-! ## Selections and credit grants -/

/-- The source a selection serves gives a report, which takes one credit and the link; or it has none to give. -/
theorem State.selectSource_returnLink (i : Fin 8) (src : Source) :
    (s.selectSource i src).returnLink = s.returnLink ∨
      ∃ r, (s.selectSource i src).returnLink = (s.credit - 1, .busy r) := by
  unfold State.selectSource
  cases src with
  | chan n =>
    dsimp only
    cases s.queues[n] with
    | nil => exact .inl rfl
    | cons r rest => exact .inr ⟨.chan n r, rfl⟩
  | reply =>
    dsimp only
    cases s.replies with
    | nil => exact .inl rfl
    | cons r rest => exact .inr ⟨.reply r, rfl⟩
  | status => exact .inr ⟨_, rfl⟩

/-- A selection takes one credit and a FREE link for the report it sends (R189), or leaves both alone. -/
theorem State.select_returnLink :
    s.select.returnLink = s.returnLink ∨
      s.link = .free ∧ ∃ r, s.select.returnLink = (s.credit - 1, .busy r) := by
  unfold State.select
  split
  · next i free _ =>
    split_ifs
    · exact .inl rfl
    · cases s.slotSource i with
      | none => exact .inl rfl
      | some src => exact (s.selectSource_returnLink i src).imp_right fun sent => ⟨free, sent⟩
  · exact .inl rfl

/-- A grant that would raise the credit above 15 makes it 15 (R188). -/
theorem State.grant_credit (amount : Nat) : (s.grant amount).credit = min 15 (s.credit + amount) := by
  unfold State.grant Config.maxReturnCredit
  split_ifs with beyond
  · exact (Nat.min_eq_left (Nat.le_of_lt beyond)).symm
  · exact (Nat.min_eq_right (Nat.le_of_not_lt beyond)).symm

end

/-- The amount a grant's word carries: its bits 3..0 (R196). -/
theorem Word.field_grant_toNat (w : Word) : (w.field 0 4).toNat = w.toNat % 16 := by
  rw [Word.field, BitVec.extractLsb'_toNat, Nat.shiftRight_zero]

/-! ## The credit after each command -/

/-- The return credit a command leaves: what the command does to it where it is a credit grant, a selection or power-on
reset, and the credit as it stood after every other. -/
def creditAfter (c : Instr) (s : State) : Nat :=
  match c with
  | .powerOnReset _ => 0
  | .creditGrant w => (s.grant (w.toNat % 16)).credit
  | .selection => s.select.credit
  | _ => s.credit

/-- A run that ends in a state with the return link of `u` ends with the credit of `u`. -/
theorem credit_of_next {s t u : State} (run : (.next s : Host.Outcome State Fault Refusal) = .next t)
    (same : s.returnLink = u.returnLink) : t.credit = u.credit := by
  cases run
  exact congrArg Prod.fst same

/-- A command that offers a record leaves the return link alone. -/
theorem credit_of_offerRecord {s t : State} {r : Record}
    (run : (.next (s.offerRecord r) : Host.Outcome State Fault Refusal) = .next t) : t.credit = s.credit :=
  credit_of_next run (s.offerRecord_returnLink r)

/-- Every command leaves the credit that `creditAfter` names. -/
theorem exec_credit {c : Instr} {s t : State} (run : exec c s = .next t) : t.credit = creditAfter c s := by
  cases c with
  | powerOnReset => cases run; rfl
  | creditGrant w => cases run; exact congrArg (fun amount => (s.grant amount).credit) (Word.field_grant_toNat w)
  | transmissionEnd => cases run; rfl
  | selection => exact credit_of_next run s.select.settle_returnLink
  | completion n => exact credit_of_next run (s.completion_returnLink n)
  | stallTimerExpiry n => exact credit_of_next run (s.stallExpiry_returnLink n)
  | copyMove => exact credit_of_next run s.copyMove_returnLink
  | strike | tipDown | tipUp | buttonPress => cases run; rfl
  | buttonRelease n => exact credit_of_next run (s.onDesk n buttonRelease).settle_returnLink
  | _ => exact credit_of_offerRecord run

/-- Only a selection lowers the credit while it is within its bound, and the bound is kept (R188). -/
theorem creditAfter_bounds (c : Instr) {s : State} (bound : s.credit ≤ 15) :
    creditAfter c s ≤ 15 ∧ (c ≠ .selection → (∀ lines, c ≠ .powerOnReset lines) → s.credit ≤ creditAfter c s) := by
  cases c with
  | powerOnReset lines => exact ⟨Nat.zero_le 15, fun _ other => absurd rfl (other lines)⟩
  | creditGrant w =>
    have granted : creditAfter (.creditGrant w) s = min 15 (s.credit + w.toNat % 16) := s.grant_credit _
    rw [granted]
    exact ⟨Nat.min_le_left .., fun _ _ => Nat.le_min.2 ⟨bound, Nat.le_add_right ..⟩⟩
  | selection =>
    refine ⟨?_, fun other => absurd rfl other⟩
    show s.select.credit ≤ 15
    rcases s.select_returnLink with same | ⟨-, r, sent⟩
    · exact (congrArg Prod.fst same).trans_le bound
    · exact (congrArg Prod.fst sent).trans_le ((Nat.sub_le ..).trans bound)
  | _ => exact ⟨bound, fun _ _ => Nat.le_refl _⟩

/-- A selection takes at most one credit, and takes it only with a FREE link, which it makes BUSY (R189). -/
theorem exec_selection_credit {s t : State} (run : exec .selection s = .next t) :
    s.credit ≤ t.credit + 1 ∧ (t.credit < s.credit → s.link = .free ∧ t.link ≠ .free) := by
  cases run
  have settled : s.select.settle.returnLink = s.select.returnLink := s.select.settle_returnLink
  rcases s.select_returnLink with same | ⟨free, r, sent⟩
  · obtain ⟨credit, -⟩ := Prod.mk.inj (settled.trans same)
    exact ⟨by omega, fun lower => absurd lower (by omega)⟩
  · obtain ⟨credit, link⟩ := Prod.mk.inj (settled.trans sent)
    exact ⟨by omega, fun _ => ⟨free, by rw [link]; nofun⟩⟩

/-- Without credit a selection is not made (R189). -/
theorem exec_selection_noCredit {s : State} (ok : s.InputOk) (spent : s.credit = 0) :
    exec .selection s = .next s := by
  have idle : s.select = s := State.select_none fun ⟨_, credit, _⟩ => by omega
  show Host.Outcome.next s.select.settle = .next s
  rw [idle, State.settle_ok ok]

/-- A grant's word adds its amount, and CREDIT-OVERRUN tells of an excess (R188). -/
theorem exec_creditGrant (w : Word) (s : State) :
    exec (.creditGrant w) s = .next
      (if 15 < s.credit + w.toNat % 16 then { s with credit := 15 }.raise .creditOverrun
       else { s with credit := s.credit + w.toNat % 16 }) := by
  show Host.Outcome.next (s.grant (w.field 0 4).toNat) = _
  rw [Word.field_grant_toNat]; rfl

/-! ## The statement -/

/-- Settles O49: the credit that each command leaves is `creditAfter`, which keeps its bound and falls only at a
selection or power-on reset. -/
theorem creditGrantAddsToTheReturnCredit : Obligations.CreditGrantAddsToTheReturnCredit := by
  unfold Obligations.CreditGrantAddsToTheReturnCredit
  refine ⟨fun s w => exec_creditGrant w s, fun c s t bound run => ?_,
    fun s ok spent => exec_selection_noCredit ok spent, fun lines s t run => exec_credit run⟩
  obtain ⟨within, raised⟩ := creditAfter_bounds c bound
  rw [← exec_credit run] at within raised
  refine ⟨within, raised, ?_⟩
  rintro rfl
  exact exec_selection_credit run

end Sys2Proof.Machine
end

section
/-! SUPPORT. What a step can do to the part, said once: every command is a sequence of elementary changes, each a
named operation of one block. What every such change keeps, every step keeps. -/

namespace Sys2Proof.Machine

/-! ## The elementary changes -/

/-- The desks an event at Pen Channel `v.n` can leave; the head-down notice and a freed place come with a change of
another block and are changes of their own. -/
inductive Desk.Event (v : View) (d : Desk) : Desk → Prop
  | passEnd (pass : PassNo) : Event v d (passEndNotice pass v d)
  | recheck : Event v d (switchRecheck v d)
  | bankSwitch : Event v d (popupSwitch v d)
  | strike : Event v d (strikeOffered v d)
  | tipDown : Event v d (tipDown v d)
  | tipUp : Event v d (tipUp v d)
  | buttonPress : Event v d (buttonPress v d)
  | buttonRelease : Event v d (buttonRelease v d)
  | enable : Event v d (enableChannel v d).2
  | disable : Event v d (disableChannel d).2.2
  | abort : Event v d (abortAttempt d).2
  | forceTrack (x y : Word) (view : NameVal) : Event v d (forceTrack v x y view d).2.2
  | clearHighlight : Event v d (clearHighlight d)

/-- What can become of Head Port `n` under the active bank `b`, a stall and the trim of a switch apart. -/
inductive HeadPort.Move (b : Bank) (n : HeadNo) (p : HeadPort) : HeadPort → Prop
  | stay : Move b n p p
  | forward (ps : List Prepared) : p.state = .up → Move b n p (HeadPort.pump (b.stallLimit n) ps p).2.1
  | complete : p.state = .up → sentCount p.trail ≠ 0 → Move b n p (p.complete (b.lag n) (b.stallLimit n))
  | restart : p.state = .down → Move b n p p.restart

/-- A mark whose operands R3 allows. -/
def MarkAllowed (m : Mark) : Prop := ∀ l v, m = .name l v → 1 ≤ l.toNat ∧ l.toNat ≤ 6

/-- The banks change places and each UP head's trail is trimmed to the new lag (R174, R47). -/
def State.exchangeBanks (s : State) : State :=
  let s1 := { s with selector := otherBank s.selector, standby := .ready }
  { s1 with ports := perHead fun n => s1.ports[n].trim (s1.active.lag n) }

/-- One elementary change of the part. -/
inductive State.Change (s : State) : State → Prop
  /-- What no book is kept of: the input, the flags, the outputs, the pending flags and the link. -/
  | other (t : State) :
      t = { s with
            passState := t.passState, passCount := t.passCount, inHand := t.inHand, offered := t.offered
            flags := t.flags, headLinks := t.headLinks, faultPending := t.faultPending, ringPtr := t.ringPtr
            credit := t.credit, link := t.link } → Change s t
  | fault (k : FaultKind) : Change s (s.raise k)
  | zeroFaults : Change s { s with faultCounts := .replicate 12 0 }
  | desk (n : HeadNo) (d : Desk) : Desk.Event (s.view n) (s.desk n) d → Change s (s.putDesk n d)
  | freed (n : HeadNo) (i : Fin 8) (r : ChannelReport) (rest : List ChannelReport) : s.queues[n] = r :: rest →
      Change s (({ s with queues := s.queues.set n rest }.send i (.chan n r)).onDesk n placeFreed)
  | stalled (n : HeadNo) : Change s ((s.setPort n s.ports[n].goDown).onDesk n headDownNotice)
  | ports (ps : Vector HeadPort 4) : (∀ n : HeadNo, HeadPort.Move s.active n s.ports[n] ps[n]) →
      Change s { s with ports := ps }
  | mark (n : HeadNo) (m : Mark) : MarkAllowed m →
      Change s { s with trackers := s.trackers.set n (s.trackers[n].take s.active m).1 }
  | openPass : Change s s.openPass
  | reply (r : Reply) : s.replyRoom = true → Change s (s.addReply r)
  | takeReply (r : Reply) (rest : List Reply) : s.replies = r :: rest → Change s { s with replies := rest }
  | standbyBank (b : Bank) : Change s (s.setStandbyBank b)
  | beginCopy : Change s { s with standby := .copying, copyPos := some .headmap }
  | moveCopy (t u : TableId) : s.copyPos = some t → Change s { s with copyPos := some u }
  | endCopy : Change s { s with standby := .ready, copyPos := none }
  | makeReady : s.standby ≠ .copying → Change s { s with standby := .ready }
  | requestSwitch (tag : Tag) : s.pendingSwitch = none → s.replyRoom = true →
      Change s { s with pendingSwitch := some tag, reserved := true }
  | withdrawSwitch : Change s { s with pendingSwitch := none, reserved := false }
  | endSwitch (tag : Tag) (o : DirOutcome) (x : ReplyData) : s.pendingSwitch = some tag →
      Change s (s.endSwitch tag o x)
  | exchangeBanks : s.standby = .ready → s.standbyBank.validate = none → Change s s.exchangeBanks
  | softReset : Change s s.softReset
  | powerOn (lines : Vector PenLines 4) : Change s { State.powerOn lines with pending := s.pending }

/-- Elementary changes one after another. -/
def State.Changes : State → State → Prop := Relation.ReflTransGen State.Change

theorem State.Changes.refl (s : State) : s.Changes s := Relation.ReflTransGen.refl

theorem State.Change.once {s t : State} (h : s.Change t) : s.Changes t := Relation.ReflTransGen.single h

theorem State.Changes.trans {s t u : State} (h : s.Changes t) (h' : t.Changes u) : s.Changes u :=
  Relation.ReflTransGen.trans h h'

theorem State.Changes.andThen {s t u : State} (h : s.Changes t) (h' : t.Change u) : s.Changes u :=
  Relation.ReflTransGen.tail h h'

/-- What every elementary change keeps, a sequence of them keeps. -/
theorem State.Changes.keeps {P : State → Prop} (each : ∀ s t : State, P s → s.Change t → P t) {s t : State}
    (h : s.Changes t) (start : P s) : P t := by
  induction h with
  | refl => exact start
  | tail _ last ih => exact each _ _ ih last

/-- What is done at each head of a list in turn. -/
theorem State.Changes.heads {f : State → HeadNo → State} (each : ∀ s n, State.Changes s (f s n)) (hs : List HeadNo)
    (s : State) : s.Changes (hs.foldl f s) :=
  List.foldlRecOn hs f (State.Changes.refl s) fun _ h n _ => h.trans (each _ n)

/-! ## Passes and the bank switch -/

theorem State.raiseAll_changes (s : State) (ks : List FaultKind) : s.Changes (s.raiseAll ks) :=
  List.foldlRecOn ks State.raise (State.Changes.refl s) fun _ h k _ => h.andThen (.fault k)

/-- An event at each channel in turn. -/
theorem State.onHeads_changes {f : View → Desk → Desk} (event : ∀ v d, Desk.Event v d (f v d)) (s : State) :
    s.Changes (allHeads.foldl (fun s n => s.onDesk n f) s) :=
  State.Changes.heads (fun _ n => (State.Change.desk n _ (event _ _)).once) allHeads s

theorem State.reloadFlags_changes (s : State) : s.Changes s.reloadFlags := (State.Change.other _ rfl).once

theorem State.switchBanks_changes {s : State} (ready : s.standby = .ready) (sound : s.standbyBank.validate = none) :
    s.Changes s.switchBanks := by
  have exchanged : s.Changes s.exchangeBanks := (State.Change.exchangeBanks ready sound).once
  have rechecked := exchanged.trans (State.onHeads_changes (fun _ _ => .recheck) _)
  have restored := rechecked.trans (State.onHeads_changes (fun _ _ => .bankSwitch) _)
  exact restored.trans (State.reloadFlags_changes _)

/-- The steps of a switch leave the pending switch as it stands. -/
theorem State.switchBanks_pendingSwitch (s : State) : s.switchBanks.pendingSwitch = s.pendingSwitch := by
  have heads (f : View → Desk → Desk) (t : State) :
      (allHeads.foldl (fun s n => s.onDesk n f) t).pendingSwitch = t.pendingSwitch :=
    List.foldlRecOn (motive := fun u : State => u.pendingSwitch = t.pendingSwitch) allHeads _ rfl fun _ h _ _ => h
  unfold State.switchBanks
  dsimp only
  rw [State.reloadFlags_pendingSwitch, heads, heads]

theorem State.attemptSwitch_changes (s : State) (pass : PassNo) : s.Changes (s.attemptSwitch pass) := by
  unfold State.attemptSwitch
  cases tag : s.pendingSwitch with
  | none => exact .refl s
  | some t =>
    cases standby : s.standby with
    | copying => exact .refl s
    | incomplete => exact (State.Change.endSwitch t _ _ tag).once
    | ready =>
      dsimp only
      cases valid : s.standbyBank.validate with
      | some f => exact (State.Change.endSwitch t _ _ tag).once
      | none =>
        exact (State.switchBanks_changes standby valid).andThen
          (.endSwitch t _ _ (s.switchBanks_pendingSwitch.trans tag))

theorem State.closePass_changes (s : State) : s.Changes s.closePass := by
  have closed : s.Changes { s with passState := .closed } := (State.Change.other _ rfl).once
  have noticed := closed.trans (State.onHeads_changes (fun _ _ => .passEnd s.passCount) _)
  exact (noticed.andThen (.other _ rfl)).trans (State.attemptSwitch_changes _ s.passCount)

theorem State.takePassStart_changes (s : State) : s.Changes s.takePassStart := by
  cases pass : s.passState with
  | closed => rw [State.takePassStart_closed pass]; exact State.Change.openPass.once
  | opened =>
    rw [State.takePassStart_opened pass]
    exact ((State.Change.fault .framing).once.trans (State.closePass_changes _)).andThen .openPass

theorem State.takePassEnd_changes (s : State) : s.Changes s.takePassEnd := by
  cases pass : s.passState with
  | closed => rw [State.takePassEnd_closed pass]; exact (State.Change.fault .framing).once
  | opened => rw [State.takePassEnd_opened pass]; exact s.closePass_changes

/-! ## Routing and delivery -/

theorem State.route_changes {s : State} {a : FileAddr} {deliver : List HeadNo → State → State}
    (delivered : s.Changes (deliver (s.destinations a) s)) : s.Changes (s.route a deliver) := by
  unfold State.route
  cases s.passState with
  | closed => exact (State.Change.fault .framing).once
  | opened =>
    dsimp only
    cases s.active.covering a with
    | nil => exact (State.Change.fault .routeMiss).once
    | cons =>
      dsimp only
      cases hs : s.destinations a with
      | nil => exact .refl s
      | cons n ns => rw [hs] at delivered; exact delivered

theorem State.markAt_changes {m : Mark} (form : MarkAllowed m) (s : State) (n : HeadNo) : s.Changes (s.markAt m n) :=
  (State.Change.mark n m form).once.trans (State.raiseAll_changes _ _)

theorem State.deliverMark_changes {m : Mark} (form : MarkAllowed m) (hs : List HeadNo) (s : State) :
    s.Changes (s.deliverMark m hs) := State.Changes.heads (State.markAt_changes form) hs s

/-- Forwarding moves the ports, and with them what is in hand and what has been sent. -/
theorem State.forwarded_changes {s : State} {hand : Option InHand} {links : Vector (List HeadRecord) 4}
    {ps : Vector HeadPort 4} (moves : ∀ n : HeadNo, HeadPort.Move s.active n s.ports[n] ps[n]) :
    s.Changes { s with inHand := hand, headLinks := links, ports := ps } := by
  have sent : s.Changes { s with inHand := hand, headLinks := links } := (State.Change.other _ rfl).once
  exact sent.andThen (.ports ps moves)

/-- A delivery forwards to UP heads only, since DOWN heads are no destinations (R12). -/
theorem State.deliver_changes (s : State) (r : Record) (prep : HeadNo → List Prepared) (a : FileAddr) :
    s.Changes (s.deliver r prep (s.destinations a)) := by
  rw [State.deliver_eq]
  refine State.forwarded_changes fun n => ?_
  rw [perHead_get]
  by_cases reached : n ∈ s.destinations a
  · have up : s.ports[n].state = .up := ((s.mem_destinations a n).1 reached).2
    have forwarded := HeadPort.Move.forward (b := s.active) (n := n) (workOf prep (s.destinations a) n) up
    rw [HeadPort.pump_eq] at forwarded
    exact forwarded
  · have idle : workOf prep (s.destinations a) n = [] := if_neg reached
    rw [idle, List.take_nil]
    exact .stay

/-- One UP head's deliveries going on. -/
theorem State.pumpHead_changes {s : State} {n : HeadNo} (up : s.ports[n].state = .up) : s.Changes (s.pumpHead n) := by
  unfold State.pumpHead
  split
  · refine State.forwarded_changes fun m => ?_
    rw [vec_set_get]
    split
    · next same => subst same; exact .forward _ up
    · exact .stay
  · exact .refl s

/-! ## Directives -/

/-- A directive's result comes of changes that take no reply space. -/
structure Result.Sound (s : State) (r : Result) : Prop where
  changes : s.Changes r.state
  space : r.state.replySpacesUsed ≤ s.replySpacesUsed

theorem Result.Sound.unchanged {s : State} (o : DirOutcome) (x : ReplyData) : Result.Sound s ⟨o, x, s⟩ :=
  ⟨.refl s, Nat.le_refl _⟩

/-- A change that leaves the replies and the reservation as they stand. -/
theorem Result.Sound.change {s t : State} {o : DirOutcome} {x : ReplyData} (h : s.Changes t)
    (replies : t.replies = s.replies) (reserved : t.reserved = s.reserved) : Result.Sound s ⟨o, x, t⟩ :=
  ⟨h, by unfold State.replySpacesUsed; rw [replies, reserved]⟩

theorem State.replyRoom_mono {s t : State} (space : t.replySpacesUsed ≤ s.replySpacesUsed) (room : s.replyRoom = true) :
    t.replyRoom = true :=
  decide_eq_true (Nat.lt_of_le_of_lt space (of_decide_eq_true room))

theorem Result.Sound.conclude {s : State} {r : Result} (sound : r.Sound s) {h : DirHeader} {d : Directive}
    (room : willReply h.want d = true → s.replyRoom = true) : s.Changes (r.conclude h d) := by
  unfold Result.conclude
  split
  · next will => exact sound.changes.andThen (.reply _ (State.replyRoom_mono sound.space (room will)))
  · cases r.outcome with
    | done => exact sound.changes
    | refused => exact sound.changes.andThen (.fault _)

section
variable (s : State)

theorem State.toChannel_sound (ch : BitVec 8) {f : View → Desk → DirOutcome × ReplyData × Desk}
    (event : ∀ v d, Desk.Event v d (f v d).2.2) : (s.toChannel ch f).Sound s := by
  unfold State.toChannel
  cases headNo? ch with
  | none => exact .unchanged _ _
  | some n => exact .change (State.Change.desk n _ (event _ _)).once rfl rfl

theorem State.standbyBank_sound (b : Bank) : (Result.ok (s.setStandbyBank b)).Sound s :=
  .change (State.Change.standbyBank b).once (s.setStandbyBank_replies b) (s.setStandbyBank_reserved b)

theorem State.writeTable_sound (bank : BankId) (table : BitVec 4) (first : Word) (count : BitVec 5)
    (images : List Word) : (s.writeTable bank table first count images).Sound s := by
  unfold State.writeTable
  cases TableId.ofCode table with
  | none => exact .unchanged _ _
  | some t =>
    dsimp only
    split_ifs
    · exact .unchanged _ _
    · exact .unchanged _ _
    · exact s.standbyBank_sound _
    · exact .unchanged _ _

theorem State.readTable_sound (bank : BankId) (table : BitVec 4) (first : Word) (count : BitVec 5) :
    (s.readTable bank table first count).Sound s := by
  unfold State.readTable
  cases TableId.ofCode table with
  | none => exact .unchanged _ _
  | some t => dsimp only; split_ifs <;> exact .unchanged _ _

theorem State.copyBank_sound : s.copyBank.Sound s := by
  unfold State.copyBank
  split_ifs
  · exact .unchanged _ _
  · exact .change State.Change.beginCopy.once rfl rfl

theorem State.clearBank_sound : s.clearBank.Sound s := by
  unfold State.clearBank
  split_ifs with copying
  · exact .unchanged _ _
  · have idle : (s.setStandbyBank Bank.defaults).standby ≠ .copying := by rwa [State.setStandbyBank_standby]
    exact .change ((State.Change.standbyBank _).once.andThen (.makeReady idle)) (s.setStandbyBank_replies _)
      (s.setStandbyBank_reserved _)

theorem State.cancelSwitch_sound : s.cancelSwitch.Sound s := by
  unfold State.cancelSwitch
  cases s.pendingSwitch with
  | none => exact .unchanged _ _
  | some => exact ⟨State.Change.withdrawSwitch.once, Nat.add_le_add_left (Nat.zero_le _) _⟩

theorem State.setPatternFlag_sound (on : Bool) (pattern : BitVec 8) : (s.setPatternFlag on pattern).Sound s := by
  unfold State.setPatternFlag
  split_ifs
  · exact .change (State.Change.other _ rfl).once rfl rfl
  · exact .unchanged _ _

theorem State.restartHead_sound (head : BitVec 8) : (s.restartHead head).Sound s := by
  unfold State.restartHead
  cases headNo? head with
  | none => exact .unchanged _ _
  | some n =>
    dsimp only
    cases state : s.ports[n].state with
    | up => exact .unchanged _ _
    | down =>
      refine .change (State.Change.ports _ fun m => ?_).once rfl rfl
      rw [vec_set_get]
      split
      · next same => subst same; exact .restart state
      · exact .stay

theorem State.readChannel_sound (n : BitVec 8) : (s.readChannel n).Sound s := by
  unfold State.readChannel
  cases headNo? n <;> exact .unchanged _ _

theorem State.readHead_sound (n : BitVec 8) : (s.readHead n).Sound s := by
  unfold State.readHead
  cases headNo? n <;> exact .unchanged _ _

theorem State.readPass_sound (item : BitVec 4) : (s.readPass item).Sound s := by
  unfold State.readPass
  split_ifs <;> exact .unchanged _ _

theorem State.readFaultsClear_sound : s.readFaultsClear.Sound s :=
  .change (State.Change.zeroFaults.once.andThen (.other _ rfl)) rfl rfl

theorem State.restart_sound : (Result.ok s.softReset).Sound s := ⟨State.Change.softReset.once, Nat.zero_le _⟩

theorem State.switchBank_changes (tag : Tag) (room : s.replyRoom = true) : s.Changes (s.switchBank tag) := by
  unfold State.switchBank
  cases pending : s.pendingSwitch with
  | none => exact (State.Change.requestSwitch tag pending room).once
  | some => exact (State.Change.reply _ room).once

/-- A directive that is handed over with a space for the reply it makes. -/
theorem State.takeDirective_changes (h : DirHeader) (d : Directive)
    (room : willReply h.want d = true → s.replyRoom = true) : s.Changes (s.takeDirective h d) := by
  cases d with
  | switchBank => exact s.switchBank_changes h.tag (room (Bool.or_true _))
  | writeTable => exact (s.writeTable_sound ..).conclude room
  | readTable => exact (s.readTable_sound ..).conclude room
  | copyBank => exact s.copyBank_sound.conclude room
  | clearBank => exact s.clearBank_sound.conclude room
  | cancelSwitch => exact s.cancelSwitch_sound.conclude room
  | enableChannel ch => exact (s.toChannel_sound ch fun _ _ => .enable).conclude room
  | disableChannel ch => exact (s.toChannel_sound ch fun _ _ => .disable).conclude room
  | abortAttempt ch => exact (s.toChannel_sound ch fun _ _ => .abort).conclude room
  | forceTrack ch x y view => exact (s.toChannel_sound ch fun _ _ => .forceTrack x y view).conclude room
  | clearHighlight ch => exact (s.toChannel_sound ch fun _ _ => .clearHighlight).conclude room
  | setPatternFlag => exact (s.setPatternFlag_sound ..).conclude room
  | restartHead => exact (s.restartHead_sound _).conclude room
  | readFaultsClear => exact s.readFaultsClear_sound.conclude room
  | readChannel => exact (s.readChannel_sound _).conclude room
  | readHead => exact (s.readHead_sound _).conclude room
  | readPass => exact (s.readPass_sound _).conclude room
  | restart => exact s.restart_sound.conclude room
  | readFaults | readBanks | unknown => exact (Result.Sound.unchanged _ _).conclude room

/-! ## Records taken, and the end of a hold -/

theorem State.handOver_changes (h : DirHeader) (d : Directive) : s.Changes (s.handOver h d) := by
  unfold State.handOver
  split_ifs with full
  · exact (State.Change.other _ rfl).once
  · refine s.takeDirective_changes h d fun will => ?_
    rw [will, Bool.true_and, Bool.not_eq_true', Bool.not_eq_false] at full
    exact full

theorem State.takeRecord_changes (r : Record) : s.Changes (s.takeRecord r) := by
  obtain ⟨a, body⟩ := r
  by_cases form : Record.formOk ⟨a, body⟩ = true
  · unfold State.takeRecord
    rw [if_pos form]
    cases body with
    | malformed => exact (State.Change.fault _).once
    | passStart => exact s.takePassStart_changes
    | passEnd => exact s.takePassEnd_changes
    | beam b => exact State.route_changes (s.deliver_changes _ _ a)
    | slot k => exact State.route_changes (s.deliver_changes _ _ a)
    | mark m =>
      refine State.route_changes (State.deliverMark_changes ?_ _ s)
      rintro l v rfl
      exact of_decide_eq_true form
    | directive tag want d => exact s.handOver_changes _ d
  · rw [State.takeRecord_malformed (Bool.eq_false_iff.2 form)]
    exact (State.Change.fault _).once

theorem State.closeHand_changes : s.Changes s.closeHand := by
  have emptied : s.Changes { s with inHand := none } := (State.Change.other _ rfl).once
  unfold State.closeHand
  cases s.inHand with
  | none => exact .refl s
  | some held => cases held with
    | deliver r w =>
      dsimp only
      split_ifs
      · exact emptied
      · exact .refl s
    | directive h d =>
      dsimp only
      split_ifs with room
      · exact emptied.trans (State.takeDirective_changes _ h d fun _ => room)
      · exact .refl s

theorem State.settle_changes : s.Changes s.settle :=
  State.settle_keeps (P := s.Changes) (fun t r h _ => h.trans (t.takeRecord_changes r))
    (fun t h => h.trans t.closeHand_changes) (fun _ _ h => h.andThen (.other _ rfl)) (.refl s)

theorem State.offerRecord_changes (r : Record) : s.Changes (s.offerRecord r) :=
  State.Changes.trans (t := { s with offered := s.offered ++ [r] }) (State.Change.other _ rfl).once
    (State.settle_changes _)

/-! ## Events -/

theorem State.completion_changes (n : HeadNo) : s.Changes (s.completion n) := by
  unfold State.completion
  cases state : s.ports[n].state with
  | down => exact (State.Change.fault _).once
  | up =>
    dsimp only
    split_ifs with sent
    · exact (State.Change.fault _).once
    · have completed : s.Changes (s.setPort n (s.ports[n].complete (s.active.lag n) (s.active.stallLimit n))) := by
        refine (State.Change.ports _ fun m => ?_).once
        rw [vec_set_get]
        split
        · next same => subst same; exact .complete state sent
        · exact .stay
      refine (completed.trans (State.pumpHead_changes ?_)).trans (State.settle_changes _)
      rw [State.setPort_ports, vec_set_self]
      exact state

theorem State.stallExpiry_changes (n : HeadNo) : s.Changes (s.stallExpiry n) := by
  unfold State.stallExpiry
  split
  · refine State.Changes.trans ?_ (State.settle_changes _)
    have ended : s.Changes { s with inHand := s.inHand.map (InHand.endHead n) } := (State.Change.other _ rfl).once
    exact (ended.andThen (.fault .headDown)).andThen (.stalled n)
  · exact .refl s

theorem State.copyMove_changes : s.Changes s.copyMove := by
  unfold State.copyMove
  cases pos : s.copyPos with
  | none => exact .refl s
  | some t =>
    dsimp only
    cases t.next? with
    | some u =>
      exact (State.Change.standbyBank _).once.andThen (.moveCopy t u ((s.setStandbyBank_copyPos _).trans pos))
    | none => exact (State.Change.standbyBank _).once.andThen .endCopy

theorem State.grant_changes (amount : Nat) : s.Changes (s.grant amount) := by
  unfold State.grant
  split_ifs
  · exact State.Changes.andThen (State.Change.other _ rfl).once (.fault _)
  · exact (State.Change.other _ rfl).once

theorem State.selectSource_changes (i : Fin 8) (src : Source) : s.Changes (s.selectSource i src) := by
  unfold State.selectSource
  cases src with
  | chan n =>
    dsimp only
    cases queue : s.queues[n] with
    | nil => exact .refl s
    | cons r rest => exact (State.Change.freed n i r rest queue).once
  | reply =>
    dsimp only
    cases replies : s.replies with
    | nil => exact .refl s
    | cons r rest => exact (State.Change.takeReply r rest replies).once.andThen (.other _ rfl)
  | status => exact (State.Change.other _ rfl).once

theorem State.select_changes : s.Changes s.select := by
  unfold State.select
  split
  · next i _ _ =>
    split_ifs
    · exact .refl s
    · cases s.slotSource i with
      | none => exact .refl s
      | some src => exact s.selectSource_changes i src
  · exact .refl s

end

/-! ## Commands and steps -/

theorem changes_of_offerRecord {s t : State} {r : Record}
    (run : (.next (s.offerRecord r) : Host.Outcome State Fault Refusal) = .next t) : s.Changes t := by
  cases run
  exact s.offerRecord_changes r

theorem exec_changes {c : Instr} {s t : State} (run : exec c s = .next t) : s.Changes t := by
  cases c with
  | powerOnReset lines => cases run; exact (State.Change.powerOn lines).once
  | completion n => cases run; exact s.completion_changes n
  | stallTimerExpiry n => cases run; exact s.stallExpiry_changes n
  | strike n => cases run; exact (State.Change.desk n _ .strike).once
  | tipDown n => cases run; exact (State.Change.desk n _ .tipDown).once
  | tipUp n => cases run; exact (State.Change.desk n _ .tipUp).once
  | buttonPress n => cases run; exact (State.Change.desk n _ .buttonPress).once
  | buttonRelease n =>
    cases run
    exact (State.Change.desk n _ .buttonRelease).once.trans (State.settle_changes _)
  | copyMove => cases run; exact s.copyMove_changes
  | creditGrant w => cases run; exact s.grant_changes _
  | transmissionEnd => cases run; exact (State.Change.other _ rfl).once
  | selection => cases run; exact s.select_changes.trans (State.settle_changes _)
  | _ => exact changes_of_offerRecord run

/-- What every elementary change keeps and the queue of commands has no part in, every step keeps. -/
theorem step_keeps {P : State → Prop} (each : ∀ s t : State, P s → s.Change t → P t)
    (queue : ∀ (s : State) cs, P s → P { s with pending := cs }) {s t : State} (start : P s)
    (run : step s = .next t) : P t := by
  unfold step at run
  cases waiting : s.pending with
  | nil => rw [waiting] at run; cases run; exact start
  | cons c cs =>
    rw [waiting] at run
    exact (exec_changes run).keeps each (queue s cs start)

end Sys2Proof.Machine
end

section
/-! SUPPORT and PROOFS. The Head Ports' books (sections 3.2 to 3.4) and the soundness of the active bank (section 10.6):
what each elementary change makes of them. -/

namespace Sys2Proof.Machine

/-! ## The trail and the lag (R38, R39) -/

/-- On an ordered trail with at most one DRAWN entry beyond L, ageing keeps the newest L DRAWN entries. -/
theorem ageTrail_ordered (lag : Nat) {d s : List TrailEntry} (hd : ∀ e ∈ d, e.state = .drawn)
    (hs : ∀ e ∈ s, e.state = .sent) (beyond : d.length ≤ lag + 1) :
    ageTrail lag (d ++ s) = d.drop (d.length - lag) ++ s := by
  unfold ageTrail
  rw [drawnCount_append, drawnCount_of_drawn hd, drawnCount_of_sent hs, Nat.add_zero]
  split_ifs with more
  · rw [dropDrawn_ordered 1 hd (by omega), show d.length - lag = 1 by omega]
  · rw [show d.length - lag = 0 by omega, List.drop_zero]

/-- What a completion leaves of the DRAWN run when it retires the SENT entry `e` (R38). -/
def drawnAfter (lag : Nat) (drawn : List TrailEntry) (e : TrailEntry) : List TrailEntry :=
  if e.visible = true then (drawn ++ [{ e with state := .drawn }]).drop (drawn.length + 1 - lag) else drawn

/-- The trail a completion leaves (R38). -/
theorem completed_trail {lag : Nat} {drawn sent : List TrailEntry} {e : TrailEntry}
    (hd : ∀ x ∈ drawn, x.state = .drawn) (hs : ∀ x ∈ e :: sent, x.state = .sent) (within : drawn.length ≤ lag) :
    ageTrail lag (retireOldest (drawn ++ e :: sent)) = drawnAfter lag drawn e ++ sent := by
  rw [retireOldest_ordered hd (hs e (by simp))]
  have hs' : ∀ x ∈ sent, x.state = .sent := fun x hx => hs x (by simp [hx])
  unfold drawnAfter
  split_ifs with visible
  · rw [ageTrail_ordered lag (by simpa [or_imp, forall_and] using hd) hs' (by simpa using within)]
    simp
  · rw [List.append_nil, ageTrail_ordered lag hd hs' (by omega), show drawn.length - lag = 0 by omega, List.drop_zero]

theorem mem_drawnAfter {lag : Nat} {drawn : List TrailEntry} {e x : TrailEntry} (h : x ∈ drawnAfter lag drawn e) :
    x ∈ drawn ∨ e.visible = true ∧ x = { e with state := .drawn } := by
  unfold drawnAfter at h
  split_ifs at h with visible
  · have := List.mem_of_mem_drop h
    simp only [List.mem_append, List.mem_singleton] at this
    exact this.imp_right fun same => ⟨visible, same⟩
  · exact .inl h

theorem length_drawnAfter {lag : Nat} {drawn : List TrailEntry} (e : TrailEntry) (within : drawn.length ≤ lag) :
    (drawnAfter lag drawn e).length ≤ lag := by
  unfold drawnAfter
  split_ifs
  · rw [List.length_drop, List.length_append, List.length_singleton]; omega
  · exact within

/-! ## What the port's operations keep -/

/-- A trail's order with the two runs named, and the numbers of its entries. -/
theorem TrailOrdered.runs {t : List TrailEntry} (h : TrailOrdered t) :
    ∃ drawn sent, t = drawn ++ sent ∧ (∀ e ∈ drawn, e.state = .drawn ∧ e.visible = true) ∧
      (∀ e ∈ sent, e.state = .sent) ∧ drawnCount t = drawn.length ∧ sentCount t = sent.length := by
  obtain ⟨drawn, sent, rfl, hd, hs⟩ := h
  refine ⟨drawn, sent, rfl, hd, hs, ?_, ?_⟩
  · rw [drawnCount_append, drawnCount_of_drawn fun e he => (hd e he).1, drawnCount_of_sent hs, Nat.add_zero]
  · rw [sentCount_append, sentCount_of_drawn fun e he => (hd e he).1, sentCount_of_sent hs, Nat.zero_add]

theorem HeadPort.balanced_up {p : HeadPort} (up : p.state = .up) :
    p.Balanced ↔ p.credit + sentCount p.trail = Config.headCredit := by
  unfold HeadPort.Balanced; rw [up]

/-- A port with nothing on its trail, all its credit and its timer stopped is in order, UP or DOWN. -/
theorem HeadPort.ok_of_empty {b : Bank} {n : HeadNo} {p : HeadPort} (credit : p.credit = Config.headCredit)
    (trail : p.trail = []) (timer : p.timer = .stopped) : p.Ok b n := by
  refine ⟨?_, ?_, ?_, fun _ => timer⟩
  · unfold HeadPort.Balanced
    cases p.state with
    | up => simp [credit, trail]
    | down => exact ⟨credit, trail, timer⟩
  · exact ⟨[], [], trail, by simp, by simp⟩
  · simp [trail]

theorem HeadPort.Ok.forward {b : Bank} {n : HeadNo} {limit : Nat} {h : HeadPort} (p : Prepared) (ok : h.Ok b n)
    (up : h.state = .up) (credit : h.credit ≠ 0) : (h.forward limit p).Ok b n := by
  obtain ⟨balanced, ordered, lag, -⟩ := ok
  rw [HeadPort.balanced_up up] at balanced
  have sent : sentCount (h.forward limit p).trail = sentCount h.trail + 1 := by
    rw [HeadPort.forward_trail, sentCount_append, sentCount_of_sent (t := [p.entry h.beam]) (by simp)]; rfl
  refine ⟨?_, ?_, ?_, fun none => by omega⟩
  · rw [HeadPort.balanced_up (show (h.forward limit p).state = .up from up), sent, HeadPort.forward_credit]; omega
  · obtain ⟨drawn, more, trail, hd, hs⟩ := ordered
    refine ⟨drawn, more ++ [p.entry h.beam], ?_, hd, by simpa [or_imp, forall_and] using hs⟩
    rw [HeadPort.forward_trail, trail, List.append_assoc]
  · rw [HeadPort.forward_trail, drawnCount_append, drawnCount_of_sent (t := [p.entry h.beam]) (by simp)]
    exact lag

theorem HeadPort.Ok.complete {b : Bank} {n : HeadNo} {limit : Nat} {h : HeadPort} (ok : h.Ok b n)
    (up : h.state = .up) (some : sentCount h.trail ≠ 0) : (h.complete (b.lag n) limit).Ok b n := by
  obtain ⟨balanced, ordered, lag, -⟩ := ok
  rw [HeadPort.balanced_up up] at balanced
  obtain ⟨drawn, sent, trail, hd, hs, drawns, sents⟩ := ordered.runs
  obtain ⟨e, sent, rfl⟩ : ∃ e rest, sent = e :: rest := List.exists_cons_of_length_pos (by omega)
  have left : (h.complete (b.lag n) limit).trail = drawnAfter (b.lag n) drawn e ++ sent := by
    rw [← completed_trail (fun x hx => (hd x hx).1) hs (by omega), ← trail]; rfl
  have state : ∀ x ∈ drawnAfter (b.lag n) drawn e, x.state = .drawn ∧ x.visible = true := fun x hx => by
    rcases mem_drawnAfter hx with old | ⟨visible, rfl⟩
    · exact hd x old
    · exact ⟨rfl, visible⟩
  have hs' : ∀ x ∈ sent, x.state = .sent := fun x hx => hs x (by simp [hx])
  have count : sentCount (h.complete (b.lag n) limit).trail = sent.length := by
    rw [left, sentCount_append, sentCount_of_drawn fun x hx => (state x hx).1, sentCount_of_sent hs', Nat.zero_add]
  refine ⟨?_, ⟨_, _, left, state, hs'⟩, ?_, fun none => if_pos none⟩
  · rw [HeadPort.balanced_up (show (h.complete (b.lag n) limit).state = .up from up), count]
    show h.credit + 1 + sent.length = _
    rw [List.length_cons] at sents
    omega
  · rw [left, drawnCount_append, drawnCount_of_drawn fun x hx => (state x hx).1, drawnCount_of_sent hs', Nat.add_zero]
    exact length_drawnAfter e (by omega)

/-- A port in order under any bank is in order under the bank to whose lag it is trimmed (R47). -/
theorem HeadPort.Ok.trim {b c : Bank} {n : HeadNo} {h : HeadPort} (ok : h.Ok b n) : (h.trim (c.lag n)).Ok c n := by
  obtain ⟨balanced, ordered, -, timer⟩ := ok
  unfold HeadPort.trim
  cases state : h.state with
  | down =>
    unfold HeadPort.Balanced at balanced
    rw [state] at balanced
    obtain ⟨credit, trail, stopped⟩ := balanced
    exact HeadPort.ok_of_empty credit trail stopped
  | up =>
    obtain ⟨drawn, sent, trail, hd, hs, -, -⟩ := ordered.runs
    have left : trimTrail (c.lag n) h.trail = drawn.drop (drawn.length - c.lag n) ++ sent := by
      rw [trail, trimTrail_ordered _ (fun x hx => (hd x hx).1) hs]
    have kept : sentCount (trimTrail (c.lag n) h.trail) = sentCount h.trail := sentCount_dropDrawn _ _
    have hd' : ∀ x ∈ drawn.drop (drawn.length - c.lag n), x.state = .drawn ∧ x.visible = true :=
      fun x hx => hd x (List.mem_of_mem_drop hx)
    refine ⟨?_, ⟨_, _, left, hd', hs⟩, ?_, fun none => timer (kept ▸ none)⟩
    · rw [HeadPort.balanced_up state, ← kept] at balanced
      exact (HeadPort.balanced_up rfl).2 balanced
    · show drawnCount (trimTrail _ _) ≤ _
      rw [left, drawnCount_append, drawnCount_of_drawn fun x hx => (hd' x hx).1, drawnCount_of_sent hs,
        List.length_drop]
      omega

theorem HeadPort.Ok.move {b : Bank} {n : HeadNo} {p q : HeadPort} (ok : p.Ok b n) (move : HeadPort.Move b n p q) :
    q.Ok b n := by
  cases move with
  | stay => exact ok
  | forward ps up =>
    have both := HeadPort.pump_keeps (P := fun h => h.Ok b n ∧ h.state = .up) (limit := b.stallLimit n)
      (fun h p ⟨hok, hup⟩ credit => ⟨hok.forward p hup credit, hup⟩) ps p ⟨ok, up⟩
    exact both.1
  | complete up sent => exact ok.complete up sent
  | restart => exact HeadPort.ok_of_empty rfl rfl rfl

/-! ## The active bank -/

/-- The default bank passes validation (R161, R173): no entry of its tables fails a test, and its ring names every
source. -/
theorem Bank.defaults_validate : Bank.defaults.validate = none := by
  have pass {α : Type} {bad : Nat → α → Bool} (n : Nat) (x : α) (good : ∀ i, bad i x = false) :
      firstBad bad 0 (Vector.replicate n x).toList = none := by
    rw [firstBad_eq_none]
    intro i e he
    rw [Vector.toList_replicate, List.getElem?_replicate] at he
    split_ifs at he
    cases he
    exact good _
  unfold Bank.validate
  rw [show firstBad _ 0 Bank.defaults.headmap.toList = none from pass 4 _ fun _ => rfl,
    show firstBad (ProfileEntry.bad Bank.defaults) 0 Bank.defaults.profile.toList = none from pass 4 _ fun _ => rfl,
    show firstBad _ 0 Bank.defaults.filter.toList = none from pass 4 _ fun _ => rfl,
    show firstBad _ 0 Bank.defaults.menu.toList = none from pass 32 _ fun _ => rfl,
    show firstBad Bank.defaults.itemBad 0 Bank.defaults.item.toList = none from pass 256 _ fun _ => rfl,
    show firstBad _ 0 Bank.defaults.pattern.toList = none from pass 16 _ fun _ => rfl]
  decide

@[simp] theorem State.exchangeBanks_active (s : State) : s.exchangeBanks.active = s.standbyBank := by
  unfold State.exchangeBanks State.active State.standbyBank
  cases s.selector <;> rfl

@[simp] theorem State.exchangeBanks_ports (s : State) (n : HeadNo) :
    s.exchangeBanks.ports[n] = s.ports[n].trim (s.standbyBank.lag n) := by
  rw [← State.exchangeBanks_active]
  exact perHead_get _ n

theorem State.powerOn_ports (lines : Vector PenLines 4) (n : HeadNo) :
    (State.powerOn lines).ports[n] = HeadPort.powerOn := by
  show (Vector.replicate 4 HeadPort.powerOn)[n] = _
  simp

/-- The active bank changes by a switch and at power-on only. -/
theorem State.Change.active_validate {s t : State} (sound : s.active.validate = none) (change : s.Change t) :
    t.active.validate = none := by
  cases change with
  | other _ same => rw [same]; exact sound
  | standbyBank b => rw [State.setStandbyBank_active]; exact sound
  | exchangeBanks _ valid => rw [State.exchangeBanks_active]; exact valid
  | powerOn => exact Bank.defaults_validate
  | _ => exact sound

/-! ## The statements -/

/-- Settles O59: every change but the exchange of the banks and power-on leaves the active bank, the exchange asks that
the standby pass, and the power-on bank passes. -/
theorem stepsKeepTheActiveBankSound : Obligations.StepsKeepTheActiveBankSound := by
  unfold Obligations.StepsKeepTheActiveBankSound
  exact fun _ _ sound run => step_keeps (P := fun s => s.active.validate = none)
    (fun _ _ => State.Change.active_validate) (fun _ _ ok => ok) sound run

theorem State.Change.ports_ok {s t : State} (ok : ∀ n : HeadNo, s.ports[n].Ok s.active n) (change : s.Change t)
    (n : HeadNo) : t.ports[n].Ok t.active n := by
  cases change with
  | other _ same => rw [same]; exact ok n
  | ports ps moves => exact (ok n).move (moves n)
  | stalled m =>
    show (s.ports.set m s.ports[m].goDown)[n].Ok _ n
    rw [vec_set_get]
    split_ifs
    · exact HeadPort.ok_of_empty rfl rfl rfl
    · exact ok n
  | standbyBank b => rw [State.setStandbyBank_active, State.setStandbyBank_ports]; exact ok n
  | exchangeBanks =>
    rw [State.exchangeBanks_active, State.exchangeBanks_ports]
    exact (ok n).trim
  | powerOn lines =>
    show (State.powerOn lines).ports[n].Ok _ n
    rw [State.powerOn_ports]
    exact HeadPort.ok_of_empty rfl rfl rfl
  | _ => exact ok n

/-- Settles O53, by what each move of a port, a stall and the trim of a switch keep of the port's books. -/
theorem stepsKeepTheHeadPorts : Obligations.StepsKeepTheHeadPorts := by
  unfold Obligations.StepsKeepTheHeadPorts
  exact fun _ _ ok run => step_keeps (P := fun s => ∀ n : HeadNo, s.ports[n].Ok s.active n)
    (fun _ _ => State.Change.ports_ok) (fun _ _ ok => ok) ok run

end Sys2Proof.Machine
end

section
/-! SUPPORT and PROOFS. The reply queue with its reservation, the copy position, the counts and the trackers (sections
2.2, 10.5, 11.3 and 11.4): what each elementary change makes of them. -/

namespace Sys2Proof.Machine

/-! ## The trackers (R20 to R23) -/

theorem Tracker.Ok.name {t : Tracker} (ok : t.Ok) {l : Nat} (v : NameVal) (level : 1 ≤ l ∧ l ≤ 6) :
    (t.name l v).1.Ok := by
  obtain ⟨depth, known⟩ := ok
  by_cases within : l ≤ t.stack.length + 1
  · rw [Tracker.name_within t l v within]
    refine ⟨?_, fun unknown => ?_⟩
    · simp only [List.length_append, List.length_take, List.length_singleton]; omega
    · obtain first | deeper : l = 1 ∨ l ≠ 1 := em _
      · subst first; simp at unknown
      · have kept : LevelVal.unknown ∈ t.stack := by
          simp only [List.mem_append, List.mem_singleton, reduceCtorEq, or_false] at unknown
          exact List.mem_of_mem_take unknown
        exact (if_neg deeper).trans (known kept)
  · rw [Tracker.name_gap t l v (by omega)]
    refine ⟨?_, fun _ => rfl⟩
    simp only [List.length_append, List.length_replicate, List.length_singleton]; omega

/-- A mark whose operands R3 allows keeps a tracker in order; only a NAME touches the name stack. -/
theorem Tracker.Ok.take {t : Tracker} (ok : t.Ok) (b : Bank) {m : Mark} (allowed : MarkAllowed m) :
    (t.take b m).1.Ok := by
  cases m with
  | name l v => exact ok.name v (allowed l v rfl)
  | menuOpen id => exact ok
  | item k =>
    show (t.item b k).1.Ok
    unfold Tracker.item
    split
    · exact ok
    · exact ok
    · split
      · dsimp only; split_ifs <;> exact ok
      · exact ok
  | menuClose => show t.menuClose.1.Ok; rw [Tracker.menuClose_eq]; exact ok

theorem Tracker.ok_empty (n : HeadNo) : (Vector.replicate 4 Tracker.empty)[n].Ok := by
  rw [show (Vector.replicate 4 Tracker.empty)[n] = Tracker.empty from Vector.getElem_replicate n.isLt]
  exact ⟨Nat.zero_le _, nofun⟩

theorem State.Change.trackers_ok {s t : State} (ok : ∀ n : HeadNo, s.trackers[n].Ok) (change : s.Change t)
    (n : HeadNo) : t.trackers[n].Ok := by
  cases change with
  | other _ same => rw [same]; exact ok n
  | mark m k allowed =>
    rw [vec_set_get]
    split_ifs
    · exact (ok m).take _ allowed
    · exact ok n
  | openPass | softReset | powerOn => exact Tracker.ok_empty n
  | standbyBank => rw [State.setStandbyBank_trackers]; exact ok n
  | _ => exact ok n

/-! ## The counts (R185, R188) -/

/-- The fault counts within 0 to 65535 (R185). -/
def State.FaultCountsOk (s : State) : Prop := ∀ c ∈ s.faultCounts.toList, c ≤ Config.maxFaultCount

theorem State.faultCountsOk_of_zero {s : State} (zero : s.faultCounts = .replicate 12 0) : s.FaultCountsOk := by
  intro c hc
  rw [zero, Vector.toList_replicate] at hc
  rw [List.eq_of_mem_replicate hc]
  exact Nat.zero_le _

theorem State.FaultCountsOk.raise {s : State} (ok : s.FaultCountsOk) (k : FaultKind) : (s.raise k).FaultCountsOk := by
  intro c hc
  rw [State.raise_faultCounts, Vector.mem_toList_iff] at hc
  rcases Vector.mem_or_eq_of_mem_set hc with old | rfl
  · exact ok c (Vector.mem_toList_iff.2 old)
  · exact Nat.min_le_left _ _

theorem State.Change.faultCounts_ok {s t : State} (ok : s.FaultCountsOk) (change : s.Change t) : t.FaultCountsOk := by
  cases change with
  | other _ same => rw [same]; exact ok
  | fault k => exact ok.raise k
  | zeroFaults | softReset | powerOn => exact State.faultCountsOk_of_zero rfl
  | standbyBank => unfold State.FaultCountsOk; rw [State.setStandbyBank_faultCounts]; exact ok
  | _ => exact ok

/-- The return credit stays within its bound. -/
theorem step_credit {s t : State} (bound : s.credit ≤ Config.maxReturnCredit) (run : step s = .next t) :
    t.credit ≤ Config.maxReturnCredit := by
  unfold step at run
  cases queue : s.pending with
  | nil => rw [queue] at run; cases run; exact bound
  | cons c cs =>
    rw [queue] at run
    rw [exec_credit run]
    exact (creditAfter_bounds c (s := { s with pending := cs }) bound).1

/-! ## The reply queue and the copy position (R167, R170, R183) -/

theorem State.Change.replies_ok {s t : State} (ok : s.RepliesOk) (change : s.Change t) : t.RepliesOk := by
  obtain ⟨space, reserved⟩ := ok
  cases change with
  | other _ same => rw [same]; exact ⟨space, reserved⟩
  | reply r room =>
    have free : s.replySpacesUsed < 8 := of_decide_eq_true room
    refine ⟨?_, reserved⟩
    unfold State.replySpacesUsed Config.replySpaces at *
    rw [State.addReply_replies, State.addReply_reserved, List.length_append, List.length_singleton]
    omega
  | takeReply r rest front =>
    refine ⟨?_, reserved⟩
    unfold State.replySpacesUsed at *
    rw [front, List.length_cons] at space
    dsimp only
    omega
  | requestSwitch tag none room =>
    have free : s.replySpacesUsed < 8 := of_decide_eq_true room
    exact ⟨Nat.lt_of_le_of_lt (Nat.le_add_right _ _) free, rfl⟩
  | withdrawSwitch => exact ⟨Nat.le_trans (Nat.le_add_right _ _) space, rfl⟩
  | endSwitch tag o x pending =>
    refine ⟨?_, rfl⟩
    rw [pending, Option.isSome_some] at reserved
    unfold State.replySpacesUsed at *
    rw [reserved, if_pos rfl] at space
    rw [State.endSwitch_replies, State.endSwitch_reserved, List.length_append]
    exact space
  | softReset | powerOn => exact ⟨Nat.zero_le _, rfl⟩
  | standbyBank =>
    unfold State.RepliesOk State.replySpacesUsed
    rw [State.setStandbyBank_replies, State.setStandbyBank_reserved, State.setStandbyBank_pendingSwitch]
    exact ⟨space, reserved⟩
  | _ => exact ⟨space, reserved⟩

theorem State.Change.copy_ok {s t : State} (ok : s.CopyOk) (change : s.Change t) : t.CopyOk := by
  cases change with
  | other _ same => rw [same]; exact ok
  | beginCopy => exact iff_of_true rfl rfl
  | moveCopy t u copying => exact iff_of_true rfl (ok.1 (by rw [copying]; rfl))
  | endCopy | powerOn => exact iff_of_false nofun nofun
  | makeReady idle => exact iff_of_false (fun copying => idle (ok.1 copying)) nofun
  | exchangeBanks ready =>
    exact iff_of_false (fun copying => nomatch ready.symm.trans (ok.1 copying)) nofun
  | softReset =>
    refine iff_of_false nofun fun copying => ?_
    replace copying : (if s.copyPos.isSome = true then .incomplete else s.standby) = Standby.copying := copying
    split_ifs at copying with pos
    exact pos (ok.2 copying)
  | standbyBank =>
    unfold State.CopyOk
    rw [State.setStandbyBank_copyPos, State.setStandbyBank_standby]
    exact ok
  | _ => exact ok

/-! ## The statement -/

/-- Settles O55, each of the four by what every elementary change makes of it; the return credit by `creditAfter`. -/
theorem stepsKeepTheCounts : Obligations.StepsKeepTheCounts := by
  unfold Obligations.StepsKeepTheCounts
  rintro s t ⟨replies, copy, ⟨credit, faults⟩, trackers⟩ run
  have steps {P : State → Prop} (each : ∀ s t : State, P s → s.Change t → P t)
      (queue : ∀ (s : State) cs, P s → P { s with pending := cs }) (start : P s) : P t :=
    step_keeps each queue start run
  exact ⟨steps (fun _ _ => State.Change.replies_ok) (fun _ _ ok => ok) replies,
    steps (fun _ _ => State.Change.copy_ok) (fun _ _ ok => ok) copy,
    ⟨step_credit credit run,
      steps (P := State.FaultCountsOk) (fun _ _ => State.Change.faultCounts_ok) (fun _ _ ok => ok) faults⟩,
    steps (P := fun s => ∀ n : HeadNo, s.trackers[n].Ok) (fun _ _ => State.Change.trackers_ok) (fun _ _ ok => ok)
      trackers⟩

end Sys2Proof.Machine
end

section
/-! SUPPORT. What the events at a Pen Channel do to the candidate table, the report queue and the levels (chapters 5, 7
and 8): the report that ends an activity, and a pop-up's restore. -/

namespace Sys2Proof.Machine

/-! ## The end of a gather -/

/-- The desk `e` is `d` with its gather ended by a report other than TRACK: the levels and the queue stand until the
report is offered, and the candidate table is cleared. -/
def Desk.Offers (d e : Desk) : Prop :=
  ∃ (c : PenChannel) (f : Vector Bool 16) (r : ChannelReport) (succ : Successor),
    e = Desk.offer ⟨c, d.queue, f⟩ r succ ∧ c.tip = d.chan.tip ∧ r.isTrack = false ∧ c.Empty

theorem PenChannel.clearTable_empty (c : PenChannel) : c.clearTable.Empty := fun i => by
  show (Vector.replicate 4 (none : Option Candidate))[i] = none
  simp

theorem PenChannel.setFilter_empty {c : PenChannel} (b : Bank) (set : BitVec 2) (h : c.Empty) :
    (c.setFilter b set).Empty := fun i => by
  show (recheckTable b set c.table)[i] = none
  rw [recheckTable_get, h i]
  rfl

/-- A table with a candidate has a winner. -/
theorem PenChannel.winner_of_any (b : Bank) {c : PenChannel} (h : c.anyCandidate = true) :
    ∃ w, c.winner b = some w := by
  rw [← Option.ne_none_iff_exists']
  intro none
  have nobody : c.candidates = [] := firstOf_eq_none none
  have empty : c.anyCandidate = false := by
    rw [PenChannel.anyCandidate_eq_false]
    intro i
    cases entry : c.table[i] with
    | none => rfl
    | some w =>
      obtain ⟨pre, post, around, -, -⟩ := c.candidates_around entry
      rw [nobody] at around
      exact absurd around.symm (by simp)
  rw [h] at empty
  cases empty

/-- SET-FILTER and TOGGLE-PATTERN do not touch the report offered before them. -/
theorem fixedAction_offer (b : Bank) (c : PenChannel) (q : List ChannelReport) (f : Vector Bool 16) (r : ChannelReport)
    (succ : Successor) (i : ItemEntry) :
    ∃ (c' : PenChannel) (f' : Vector Bool 16),
      fixedAction b (Desk.offer ⟨c, q, f⟩ r succ) i = Desk.offer ⟨c', q, f'⟩ r succ ∧
      c'.tip = c.tip ∧ (c.Empty → c'.Empty) := by
  unfold fixedAction
  cases i.act with
  | setFilter =>
    refine ⟨c.setFilter b i.filterArg, f, ?_, rfl, PenChannel.setFilter_empty b _⟩
    unfold Desk.offer Desk.room
    dsimp only
    split_ifs <;> rfl
  | togglePattern =>
    refine ⟨c, toggleFlag f i.patternArg, ?_, rfl, id⟩
    unfold Desk.offer Desk.room
    dsimp only
    split_ifs <;> rfl
  | report | reportAndCancel | trackHere => exact ⟨c, f, rfl, rfl, id⟩

/-- A resolution of a table with a candidate ends the gather (R77 to R79). -/
theorem resolve_offers (v : View) (k : Resolution) (pass : PassNo) {d : Desk} (h : d.chan.anyCandidate = true) :
    d.Offers (resolve v k pass d) := by
  obtain ⟨w, winner⟩ := PenChannel.winner_of_any v.bank h
  unfold resolve
  rw [winner]
  dsimp only
  cases w.ident with
  | pick path =>
    dsimp only
    unfold resolvePick
    dsimp only
    split_ifs
    · exact ⟨_, _, _, _, rfl, rfl, rfl, d.chan.clearTable_empty⟩
    · exact ⟨_, _, _, _, rfl, rfl, rfl, d.chan.clearTable_empty⟩
  | menu m it =>
    dsimp only
    unfold resolveMenu
    dsimp only
    split
    · next i _ =>
      obtain ⟨c, f, whole, tip, empty⟩ := fixedAction_offer v.bank d.chan.clearTable d.queue d.flags _ _ i
      exact ⟨c, f, _, _, whole, tip, rfl, empty d.chan.clearTable_empty⟩
    · exact ⟨_, _, _, _, rfl, rfl, rfl, d.chan.clearTable_empty⟩

/-- A TIP-UP in GATHER ends the gather, by a resolution or a MISS (R75). -/
theorem gatherTipUp_offers (v : View) (d : Desk) : d.Offers (gatherTipUp v d) := by
  unfold gatherTipUp
  split_ifs with some
  · exact resolve_offers v _ _ some
  · exact ⟨_, _, _, _, rfl, rfl, rfl, d.chan.clearTable_empty⟩

/-! ## The pass-end update of a track -/

/-- The queue and the pending update after the pass-end update's TRACK report, made of a moved cross only (R135). -/
def trackOffered (v : View) (pass : PassNo) (t : Tracking) (q : List ChannelReport) :
    List ChannelReport × Option TrackReport :=
  if t.moved v.profile.a.toNat = t.pos then (q, t.update)
  else offerTrack q t.update (trackReport v.bank pass t.view (t.moved v.profile.a.toNat))

/-- The pass-end update of a track loses it, or leaves a track with what its report made of the queue and the pending
update (R135, R136). -/
theorem trackPassEnd_cases (v : View) (pass : PassNo) (t : Tracking) (d : Desk) :
    trackPassEnd v pass t d =
        Desk.offer { d with queue := (trackOffered v pass t d.queue).1 } (.trackLost (t.moved v.profile.a.toNat))
          (heldIfDown d.chan.tip) ∨
      ∃ t' : Tracking, t'.update = (trackOffered v pass t d.queue).2 ∧
        trackPassEnd v pass t d =
          Desk.setState { d with queue := (trackOffered v pass t d.queue).1 } (.track t') := by
  by_cases struck : t.arms = Arms.empty
  · by_cases lost : v.profile.k.toNat ≤ t.miss + 1
    · exact .inl ((if_pos struck).trans (if_pos lost))
    · exact .inr ⟨_, rfl, (if_pos struck).trans (if_neg lost)⟩
  · exact .inr ⟨_, rfl, if_neg struck⟩

/-! ## What is left of a channel: its queue, its table, its levels -/

/-- A pending update stands only beside a full queue without a TRACK report (R139, R140). -/
def Tracking.UpdateOk (t : Tracking) (q : List ChannelReport) : Prop :=
  t.update.isSome = true → q.length = Config.queuePlaces ∧ q.countP ChannelReport.isTrack = 0

/-- The update a saved TRACK keeps back. -/
def Saved.UpdateOk (x : Saved) (q : List ChannelReport) : Prop := ∀ t, x = .track t → t.UpdateOk q

theorem keptBackOk_popup {c : PenChannel} {p : Popup} (q : List ChannelReport) (h : c.state = .popup p) :
    KeptBackOk c q ↔ p.slot.state.UpdateOk q := by
  unfold KeptBackOk
  rw [h]
  dsimp only
  unfold Saved.UpdateOk
  cases p.slot.state with
  | track t => simp [Tracking.UpdateOk]
  | idle | gather | held => simp

theorem keptBackOk_track {c : PenChannel} {t : Tracking} (q : List ChannelReport) (h : c.state = .track t) :
    KeptBackOk c q ↔ t.UpdateOk q := by
  unfold KeptBackOk
  rw [h]
  rfl

/-- In OFF, IDLE, GATHER and HELD a channel keeps nothing back. -/
theorem keptBackOk_idle {c : PenChannel} (q : List ChannelReport)
    (h : c.state = .off ∨ c.state = .idle ∨ c.state = .gather ∨ c.state = .held) : KeptBackOk c q := by
  unfold KeptBackOk
  rcases h with h | h | h | h <;> rw [h] <;> trivial

/-- A queue that has a place takes a report other than TRACK. -/
theorem QueueOk.append {q : List ChannelReport} (ok : QueueOk q) (room : q.length < 4) {r : ChannelReport}
    (other : r.isTrack = false) : QueueOk (q ++ [r]) := by
  obtain ⟨-, tracks⟩ := ok
  refine ⟨?_, ?_⟩
  · rw [List.length_append]; exact room
  · rw [List.countP_append, List.countP_singleton, other]; exact tracks

/-- Two per-identity entries of a table are one. -/
def Distinct (t : Vector (Option Candidate) 4) : Prop :=
  ∀ (i j : Fin 4) (e f : Candidate), t[i] = some e → t[j] = some f → e.ident = f.ident → i = j

theorem PenChannel.distinct_iff (c : PenChannel) : (c.candidates.map (·.ident)).Nodup ↔ Distinct c.table := by
  unfold PenChannel.candidates List.Nodup
  rw [List.pairwise_map, List.pairwise_filterMap, List.pairwise_iff_getElem]
  constructor
  · intro h i j e f he hf same
    by_contra ne
    rcases Nat.lt_or_gt_of_ne (fun e => ne (Fin.ext e)) with lt | lt
    · exact h i j (by simp) (by simp) lt e (by simpa using he) f (by simpa using hf) same
    · exact h j i (by simp) (by simp) lt f (by simpa using hf) e (by simpa using he) same.symm
  · intro h i j hi hj lt e he f hf same
    rw [Vector.length_toList] at hi hj
    have := h ⟨i, hi⟩ ⟨j, hj⟩ e f (by simpa using he) (by simpa using hf) same
    exact absurd (congrArg Fin.val this) (Nat.ne_of_lt lt)

/-- The table is in order: no identity twice, and candidates only where the state holds them (R69). -/
theorem PenChannel.tableOk_iff (c : PenChannel) :
    c.TableOk ↔ Distinct c.table ∧ (c.state.holdsCandidates = true ∨ c.Empty) := by
  unfold PenChannel.TableOk
  rw [c.distinct_iff]
  refine and_congr_right fun _ => ?_
  cases any : c.anyCandidate with
  | false => exact iff_of_true nofun (.inr (PenChannel.anyCandidate_eq_false.1 any))
  | true =>
    have full : ¬ c.Empty := fun empty => by rw [PenChannel.anyCandidate_eq_false.2 empty] at any; cases any
    simp only [full, or_false, forall_const]

theorem PenChannel.Empty.tableOk {c : PenChannel} (h : c.Empty) : c.TableOk :=
  (PenChannel.tableOk_iff c).2 ⟨fun i _ _ _ he => absurd ((h i).symm.trans he) nofun, .inr h⟩

/-- A channel without candidates, whatever else becomes of it. -/
theorem PenChannel.Empty.tableOk_of_same {c c' : PenChannel} (h : c.Empty) (table : c'.table = c.table) :
    c'.TableOk := PenChannel.Empty.tableOk fun i => by rw [table]; exact h i

theorem PenChannel.TableOk.empty {c : PenChannel} (h : c.TableOk) (state : c.state.holdsCandidates = false) :
    c.Empty := by
  obtain holds | empty := ((PenChannel.tableOk_iff c).1 h).2
  · rw [state] at holds; cases holds
  · exact empty

/-- What leaves the table as it stands and the state holding candidates, if it held them. -/
theorem PenChannel.TableOk.congr {c c' : PenChannel} (h : c.TableOk) (table : c'.table = c.table)
    (state : c.state.holdsCandidates = true → c'.state.holdsCandidates = true) : c'.TableOk := by
  obtain ⟨distinct, holds⟩ := (PenChannel.tableOk_iff c).1 h
  refine (PenChannel.tableOk_iff c').2 ⟨table ▸ distinct, holds.imp state fun empty i => ?_⟩
  rw [table]
  exact empty i

/-- The level conditions that the tip does not enter: an UP head in GATHER, TRACK, POPUP and before a TRACK, and in
POPUP the button held and a gather saved with the tip down. -/
def PenChannel.HeadOk (c : PenChannel) (p : HeadPort) : Prop :=
  match c.state with
  | .gather | .track _ | .wait _ (.track _ _) => p.state = .up
  | .popup q => p.state = .up ∧ c.button = .held ∧ (q.slot.state = .gather → q.slot.tipAtOpening = .down)
  | .off | .idle | .held | .wait _ .idle | .wait _ .held => True

theorem PenChannel.LevelsOk.headOk {c : PenChannel} {p : HeadPort} (h : c.LevelsOk p) : c.HeadOk p := by
  unfold PenChannel.LevelsOk at h
  unfold PenChannel.HeadOk
  split at h <;> simp_all

/-- The levels a pop-up noted at its opening agree with the tip: a gather was saved with the tip down, and a tip that
was down and whose release was not noted is down. -/
def SaveSlot.Agrees (slot : SaveSlot) (tip : Tip) : Prop :=
  (slot.state = .gather → slot.tipAtOpening = .down) ∧
    (slot.tipAtOpening = .down → slot.note = false → tip = .down)

theorem PenChannel.levelsOk_popup {c : PenChannel} {p : HeadPort} {q : Popup} (h : c.state = .popup q) :
    c.LevelsOk p ↔ p.state = .up ∧ c.button = .held ∧ q.slot.Agrees c.tip := by
  unfold PenChannel.LevelsOk
  rw [h]
  rfl

/-! ## An activity ended leaves all three in order -/

theorem Desk.offer_state (d : Desk) (r : ChannelReport) (succ : Successor) :
    (d.offer r succ).chan.state = succ.enter ∨ (d.offer r succ).chan.state = .wait r succ := by
  unfold Desk.offer
  split_ifs
  · exact .inl rfl
  · exact .inr rfl

theorem Desk.offer_table (d : Desk) (r : ChannelReport) (succ : Successor) :
    (d.offer r succ).chan.table = d.chan.table := by
  unfold Desk.offer
  split_ifs <;> rfl

theorem Desk.offer_tip (d : Desk) (r : ChannelReport) (succ : Successor) : (d.offer r succ).chan.tip = d.chan.tip := by
  unfold Desk.offer
  split_ifs <;> rfl

theorem Desk.offer_empty {d : Desk} (r : ChannelReport) (succ : Successor) (h : d.chan.Empty) :
    (d.offer r succ).chan.Empty := fun i => by rw [Desk.offer_table]; exact h i

theorem Desk.offer_levels (d : Desk) (r : ChannelReport) (succ : Successor) {p : HeadPort}
    (up : ∀ pos view, succ = .track pos view → p.state = .up) : (d.offer r succ).chan.LevelsOk p := by
  unfold PenChannel.LevelsOk
  rcases d.offer_state r succ with entered | waits
  · rw [entered]
    cases succ with
    | idle | held => trivial
    | track pos view => exact up pos view rfl
  · rw [waits]
    cases succ with
    | idle | held => trivial
    | track pos view => exact up pos view rfl

theorem Desk.offer_queues {d : Desk} {r : ChannelReport} (succ : Successor) (ok : QueueOk d.queue)
    (other : r.isTrack = false) :
    QueueOk (d.offer r succ).queue ∧ KeptBackOk (d.offer r succ).chan (d.offer r succ).queue := by
  by_cases room : d.queue.length < 4
  · rw [Desk.offer_room r succ room]
    refine ⟨ok.append room other, ?_⟩
    cases succ with
    | idle => exact keptBackOk_idle _ (.inr (.inl rfl))
    | held => exact keptBackOk_idle _ (.inr (.inr (.inr rfl)))
    | track pos view => exact (keptBackOk_track _ rfl).2 nofun
  · rw [Desk.offer_full r succ room]
    exact ⟨ok, other, Nat.le_antisymm ok.1 (Nat.le_of_not_lt room)⟩

theorem Desk.Offers.tip {d e : Desk} (h : d.Offers e) : e.chan.tip = d.chan.tip := by
  obtain ⟨c, f, r, succ, rfl, tip, -, -⟩ := h
  rw [Desk.offer_tip]
  exact tip

theorem Desk.Offers.tableOk {d e : Desk} (h : d.Offers e) : e.chan.TableOk := by
  obtain ⟨c, f, r, succ, rfl, -, -, empty⟩ := h
  exact (Desk.offer_empty r succ (d := ⟨c, d.queue, f⟩) empty).tableOk

theorem Desk.Offers.levels {d e : Desk} (h : d.Offers e) {p : HeadPort} (up : p.state = .up) : e.chan.LevelsOk p := by
  obtain ⟨c, f, r, succ, rfl, -, -, -⟩ := h
  exact Desk.offer_levels _ r succ fun _ _ _ => up

theorem Desk.Offers.queues {d e : Desk} (h : d.Offers e) (ok : QueueOk d.queue) :
    QueueOk e.queue ∧ KeptBackOk e.chan e.queue := by
  obtain ⟨c, f, r, succ, rfl, -, other, -⟩ := h
  exact Desk.offer_queues succ ok other

end Sys2Proof.Machine
end

section
/-! SUPPORT and PROOFS. The candidate tables (section 5.3): what each event at a channel and each elementary change
makes of them. -/

namespace Sys2Proof.Machine

/-! ## The table's operations -/

theorem recheckTable_some {b : Bank} {set : BitVec 2} {t : Vector (Option Candidate) 4} {i : Fin 4} {e : Candidate}
    (h : (recheckTable b set t)[i] = some e) : t[i] = some e := by
  rw [recheckTable_get, Option.filter_eq_some_iff] at h
  exact h.1

theorem PenChannel.TableOk.recheck {c : PenChannel} (h : c.TableOk) (b : Bank) (set : BitVec 2) :
    PenChannel.TableOk { c with table := recheckTable b set c.table } := by
  obtain ⟨distinct, holds⟩ := (PenChannel.tableOk_iff c).1 h
  refine (PenChannel.tableOk_iff _).2 ⟨fun i j e f he hf => ?_, holds.imp id fun empty => ?_⟩
  · exact distinct i j e f (recheckTable_some he) (recheckTable_some hf)
  · exact PenChannel.setFilter_empty b set empty

/-- An entry put where every other entry has another identity. -/
theorem Distinct.set {t : Vector (Option Candidate) 4} (h : Distinct t) (i : Fin 4) (x : Candidate)
    (fresh : ∀ (j : Fin 4) (f : Candidate), t[j] = some f → f.ident = x.ident → j = i) :
    Distinct (t.set i (some x)) := by
  intro j k e f he hf same
  rw [vec_set_get] at he hf
  split_ifs at he hf with hj hk hk
  · exact hj.symm.trans hk
  · cases he; exact hj.symm.trans (fresh k f hf same.symm).symm
  · cases hf; exact (fresh j e he same).trans hk
  · exact h j k e f he hf same

theorem findEntry_some {t : Vector (Option Candidate) 4} {id : Identity} {i : Fin 4} (h : findEntry t id = some i) :
    ∃ e, t[i] = some e ∧ e.ident = id := by
  have found := List.find?_some h
  rw [beq_iff_eq, Option.map_eq_some_iff] at found
  exact found

theorem PenChannel.takeHit_distinct (lag : Bool) {c : PenChannel} (h : Hit) (distinct : Distinct c.table) :
    Distinct (c.takeHit lag h).table := by
  unfold PenChannel.takeHit
  split
  · next i found =>
    obtain ⟨e, entry, ident⟩ := findEntry_some found
    rw [entry]
    exact distinct.set i (e.hit h) fun j f hf same => distinct j i f e hf entry same
  · next absent =>
    have fresh (i : Fin 4) (j : Fin 4) (f : Candidate) (hf : c.table[j] = some f) (same : f.ident = h.candidate.ident) :
        j = i := absurd same (findEntry_eq_none.1 absent j f hf)
    split_ifs
    · split
      · exact distinct.set _ _ (fresh _)
      · exact distinct.set _ _ (fresh _)
    · exact distinct

theorem PenChannel.takeHit_state (lag : Bool) (c : PenChannel) (h : Hit) : (c.takeHit lag h).state = c.state := by
  rw [PenChannel.takeHit_frame]

theorem PenChannel.moveStrike_frame (c : PenChannel) (struck : List (TrailEntry × Nat)) :
    c.moveStrike struck = { c with lastStrike := (c.moveStrike struck).lastStrike } := by
  unfold PenChannel.moveStrike
  split <;> rfl

/-- A hit list taken in GATHER. -/
theorem PenChannel.takeHits_tableOk (lag : Bool) (hits : List Hit) {c : PenChannel} (h : c.TableOk)
    (gather : c.state = .gather) :
    (hits.foldl (PenChannel.takeHit lag) c).TableOk ∧ (hits.foldl (PenChannel.takeHit lag) c).state = .gather := by
  induction hits generalizing c with
  | nil => exact ⟨h, gather⟩
  | cons x xs ih =>
    have state : (c.takeHit lag x).state = .gather := (PenChannel.takeHit_state lag c x).trans gather
    refine ih ((PenChannel.tableOk_iff _).2 ⟨?_, .inl ?_⟩) state
    · exact PenChannel.takeHit_distinct lag x ((PenChannel.tableOk_iff c).1 h).1
    · rw [state]; rfl

/-! ## Events at a channel -/

theorem tipUpOffered_tableOk (v : View) {d : Desk} (h : d.chan.TableOk) : (tipUpOffered v d).chan.TableOk := by
  unfold tipUpOffered
  split
  · exact h
  · exact (gatherTipUp_offers v d).tableOk
  · next held => exact (h.empty (by rw [held]; rfl)).tableOk_of_same rfl
  · next track => exact (Desk.offer_empty _ _ (h.empty (by rw [track]; rfl))).tableOk
  · next popup => exact h.congr rfl fun holds => by rw [popup] at holds; exact holds
  all_goals exact h

theorem tipDownOffered_tableOk (v : View) {d : Desk} (h : d.chan.TableOk) : (tipDownOffered v d).chan.TableOk := by
  unfold tipDownOffered
  split
  · exact h
  · exact (d.chan.clearTable_empty).tableOk_of_same rfl
  all_goals exact h

theorem tipUp_tableOk (v : View) {d : Desk} (h : d.chan.TableOk) : (tipUp v d).chan.TableOk := by
  unfold tipUp
  split
  · exact h
  · exact tipUpOffered_tableOk v (h.congr rfl id)

theorem tipDown_tableOk (v : View) {d : Desk} (h : d.chan.TableOk) : (tipDown v d).chan.TableOk := by
  unfold tipDown
  split
  · exact h
  · exact tipDownOffered_tableOk v (h.congr rfl id)

/-- A restore takes the table over: its candidates are those of the saved gather (R121). -/
theorem restore_tableOk (v : View) (p : Popup) {d : Desk} (h : d.chan.TableOk)
    (saved : d.chan.state.holdsCandidates = true → p.slot.state = .gather) : (restore v p d).chan.TableOk := by
  have restored : PenChannel.TableOk
      { d.chan with state := p.slot.state.restore, gather := p.slot.gather, crowded := p.slot.crowded } :=
    h.congr rfl fun holds => by rw [saved holds]; rfl
  unfold restore reconcileTip
  dsimp only
  split_ifs
  · exact tipDownOffered_tableOk v (tipUpOffered_tableOk v restored)
  · exact tipDownOffered_tableOk v restored
  · exact tipUpOffered_tableOk v restored
  · exact restored

theorem holdsCandidates_popup {c : PenChannel} {p : Popup} (popup : c.state = .popup p)
    (holds : c.state.holdsCandidates = true) : p.slot.state = .gather := by
  rw [popup] at holds
  exact beq_iff_eq.1 holds

theorem makeChoice_tableOk (v : View) (pass : PassNo) (p : Popup) {d : Desk} (h : d.chan.TableOk)
    (saved : d.chan.state.holdsCandidates = true → p.slot.state = .gather) : (makeChoice v pass p d).chan.TableOk := by
  unfold makeChoice
  dsimp only
  split_ifs
  · unfold choiceAppended
    split
    · exact restore_tableOk v p h saved
    · next i _ =>
      cases i.act with
      | report => exact restore_tableOk v p h saved
      | reportAndCancel => exact (d.chan.clearTable_empty).tableOk_of_same rfl
      | setFilter => exact restore_tableOk v p ((h.recheck v.bank i.filterArg).congr rfl id) saved
      | togglePattern => exact restore_tableOk v p h saved
      | trackHere => exact (d.chan.clearTable_empty).tableOk_of_same rfl
  · unfold choiceHeld
    split
    · exact (d.chan.clearTable_empty).tableOk_of_same rfl
    · next i _ =>
      unfold fixedAction
      cases i.act with
      | setFilter => exact (PenChannel.setFilter_empty v.bank _ (d.chan.clearTable_empty)).tableOk_of_same rfl
      | report | reportAndCancel | togglePattern | trackHere => exact (d.chan.clearTable_empty).tableOk_of_same rfl

theorem passEndNotice_tableOk (pass : PassNo) (v : View) {d : Desk} (h : d.chan.TableOk) :
    (passEndNotice pass v d).chan.TableOk := by
  unfold passEndNotice
  split
  · unfold gatherPassEnd
    split_ifs with some
    · exact (resolve_offers v .passEnd pass (d := ⟨{ d.chan with gather := d.chan.gather + 1 }, d.queue, d.flags⟩)
        some).tableOk
    · exact h.congr rfl id
    · exact h
  · next p popup =>
    have saved := holdsCandidates_popup popup
    have counted : (d.setState (.popup { p with count := p.count + 1 })).chan.TableOk :=
      h.congr rfl fun holds => beq_iff_eq.2 (saved holds)
    unfold popupPassEnd
    dsimp only
    split_ifs
    · exact makeChoice_tableOk v pass _ counted fun holds => beq_iff_eq.1 holds
    · exact counted
    · exact h
  · next t track =>
    have empty := h.empty (by rw [track]; rfl)
    rcases trackPassEnd_cases v pass t d with lost | ⟨t', -, goes⟩
    · rw [lost]; exact empty.tableOk_of_same (Desk.offer_table _ _ _)
    · rw [goes]; exact empty.tableOk_of_same rfl
  all_goals exact h

theorem strikeOffered_tableOk (v : View) {d : Desk} (h : d.chan.TableOk) : (strikeOffered v d).chan.TableOk := by
  have moved {c : PenChannel} (ok : c.TableOk) (struck : List (TrailEntry × Nat)) : (c.moveStrike struck).TableOk := by
    rw [PenChannel.moveStrike_frame]; exact ok.congr rfl id
  unfold strikeOffered
  dsimp only
  split
  · exact h
  · exact moved h _
  · exact moved h _
  · next gather => exact moved (PenChannel.takeHits_tableOk _ _ h gather).1 _
  · next track => exact (h.empty (by rw [track]; rfl)).tableOk_of_same rfl
  · next popup =>
    have saved := holdsCandidates_popup popup
    split
    · exact h.congr rfl fun holds => beq_iff_eq.2 (saved holds)
    · exact h
  all_goals exact h

theorem buttonPress_tableOk (v : View) {d : Desk} (h : d.chan.TableOk) : (buttonPress v d).chan.TableOk := by
  unfold buttonPress
  split
  · exact h
  · unfold buttonPressOffered
    dsimp only
    split
    · next saved _ _ save _ =>
      refine h.congr rfl fun holds => ?_
      unfold ChanState.holdsCandidates at holds
      cases state : d.chan.state <;> rw [state] at save holds <;> cases save <;> cases holds
      rfl
    · exact h.congr rfl id

theorem buttonRelease_tableOk (v : View) {d : Desk} (h : d.chan.TableOk) : (buttonRelease v d).chan.TableOk := by
  unfold buttonRelease
  split
  · exact h
  · have released : PenChannel.TableOk { d.chan with button := .released } := h.congr rfl id
    unfold buttonReleaseOffered
    dsimp only
    split
    · next p _ popup =>
      split_ifs
      · exact makeChoice_tableOk v _ p released (holdsCandidates_popup popup)
      · exact restore_tableOk v p released (holdsCandidates_popup popup)
    · exact released

theorem popupSwitch_tableOk (v : View) {d : Desk} (h : d.chan.TableOk) : (popupSwitch v d).chan.TableOk := by
  unfold popupSwitch
  split
  · next p popup =>
    have saved := holdsCandidates_popup popup
    split_ifs
    · exact h.congr rfl fun holds => beq_iff_eq.2 (saved holds)
    · exact restore_tableOk v p h saved
  · exact h

theorem switchRecheck_tableOk (v : View) {d : Desk} (h : d.chan.TableOk) : (switchRecheck v d).chan.TableOk := by
  unfold switchRecheck
  split_ifs
  · exact h.recheck _ _
  · exact h

/-- An aborted activity leaves no candidate: its table is cleared, or it held none. -/
theorem abortClear_empty {c : PenChannel} (h : c.TableOk) (busy : c.state.Busy) : (abortClear c).Empty := by
  unfold abortClear
  rcases busy with gather | ⟨t, track⟩ | ⟨p, popup⟩
  · rw [gather]; exact c.clearTable_empty
  · rw [track]; exact h.empty (by rw [track]; rfl)
  · rw [popup]; exact c.clearTable_empty

theorem abortAttempt_tableOk {d : Desk} (h : d.chan.TableOk) : (abortAttempt d).2.chan.TableOk := by
  unfold abortAttempt
  have aborted (busy : d.chan.state.Busy) (r : ChannelReport) (succ : Successor) :
      (Desk.offer { d with chan := abortClear d.chan } r succ).chan.TableOk :=
    (Desk.offer_empty r succ (abortClear_empty h busy)).tableOk
  cases state : d.chan.state with
  | off | idle | held => exact h
  | gather => exact aborted (.inl state) _ _
  | track t => exact aborted (.inr (.inl ⟨t, state⟩)) _ _
  | popup p => exact aborted (.inr (.inr ⟨p, state⟩)) _ _
  | wait => exact (h.empty (by rw [state]; rfl)).tableOk_of_same rfl

theorem headDownNotice_tableOk (v : View) {d : Desk} (h : d.chan.TableOk) :
    (headDownNotice v d).chan.TableOk := by
  unfold headDownNotice
  have aborted (busy : d.chan.state.Busy) (r : ChannelReport) (succ : Successor) :
      (Desk.offer { d with chan := abortClear d.chan } r succ).chan.TableOk :=
    (Desk.offer_empty r succ (abortClear_empty h busy)).tableOk
  cases state : d.chan.state with
  | off | idle => exact h
  | gather => exact aborted (.inl state) _ _
  | track t => exact aborted (.inr (.inl ⟨t, state⟩)) _ _
  | popup p => exact aborted (.inr (.inr ⟨p, state⟩)) _ _
  | held | wait => exact (h.empty (by rw [state]; rfl)).tableOk_of_same rfl

theorem placeFreed_tableOk (v : View) {d : Desk} (h : d.chan.TableOk) : (placeFreed v d).chan.TableOk := by
  unfold placeFreed
  cases state : d.chan.state with
  | wait => exact (h.empty (by rw [state]; rfl)).tableOk_of_same rfl
  | track t =>
    have empty := h.empty (by rw [state]; rfl)
    dsimp only
    split
    · exact empty.tableOk_of_same rfl
    · exact h
  | popup p =>
    dsimp only
    split
    · next saved =>
      have empty := h.empty (by rw [state]; unfold ChanState.holdsCandidates; dsimp only; rw [saved]; rfl)
      split
      · exact empty.tableOk_of_same rfl
      · exact h
    all_goals exact h
  | off | idle | gather | held => exact h

/-- Every event at a channel keeps its table in order. -/
theorem Desk.Event.tableOk {v : View} {d e : Desk} (event : Desk.Event v d e) (h : d.chan.TableOk) :
    e.chan.TableOk := by
  cases event with
  | passEnd pass => exact passEndNotice_tableOk pass v h
  | recheck => exact switchRecheck_tableOk v h
  | bankSwitch => exact popupSwitch_tableOk v h
  | strike => exact strikeOffered_tableOk v h
  | tipDown => exact tipDown_tableOk v h
  | tipUp => exact tipUp_tableOk v h
  | buttonPress => exact buttonPress_tableOk v h
  | buttonRelease => exact buttonRelease_tableOk v h
  | enable =>
    unfold enableChannel
    split
    · exact (d.chan.clearTable_empty).tableOk_of_same rfl
    · exact h
  | disable =>
    unfold disableChannel
    dsimp only
    split
    · exact h
    all_goals (try split_ifs) <;> exact (d.chan.clearTable_empty).tableOk_of_same rfl
  | abort => exact abortAttempt_tableOk h
  | forceTrack =>
    unfold Machine.forceTrack
    dsimp only
    split
    · next state => exact (h.empty (by rw [state]; rfl)).tableOk_of_same rfl
    · next state => exact (h.empty (by rw [state]; rfl)).tableOk_of_same rfl
    · exact h
  | clearHighlight => exact h.congr rfl id

/-! ## The statement -/

theorem State.powerOn_chans (lines : Vector PenLines 4) (n : HeadNo) :
    (State.powerOn lines).chans[n] = PenChannel.powerOn Bank.defaults n lines[n] := by
  fin_cases n <;> rfl

/-- A property of a channel kept at the one channel an update replaces is kept at every channel. -/
theorem forall_set {α : Type} {P : HeadNo → α → Prop} {v : Vector α 4} (h : ∀ n : HeadNo, P n v[n]) {m : HeadNo} {x : α}
    (new : P m x) (n : HeadNo) : P n (v.set m x)[n] := by
  rw [vec_set_get]
  split_ifs with same
  · exact same ▸ new
  · exact h n

theorem State.Change.tables_ok {s t : State} (ok : ∀ n : HeadNo, s.chans[n].TableOk) (change : s.Change t)
    (n : HeadNo) : t.chans[n].TableOk := by
  cases change with
  | other _ same => rw [same]; exact ok n
  | desk m d event => exact forall_set (P := fun _ c => PenChannel.TableOk c) ok (event.tableOk (ok m)) n
  | freed m i r rest =>
    exact forall_set (P := fun _ c => PenChannel.TableOk c) ok (placeFreed_tableOk _ (ok m)) n
  | stalled m => exact forall_set (P := fun _ c => PenChannel.TableOk c) ok (headDownNotice_tableOk _ (ok m)) n
  | standbyBank => rw [State.setStandbyBank_chans]; exact ok n
  | softReset =>
    show (perHead fun n => s.chans[n].softReset s.active n)[n].TableOk
    rw [perHead_get]
    exact (s.chans[n].clearTable_empty).tableOk_of_same rfl
  | powerOn lines =>
    show (State.powerOn lines).chans[n].TableOk
    rw [State.powerOn_chans]
    exact (PenChannel.clearTable_empty (PenChannel.powerOn Bank.defaults n lines[n])).tableOk_of_same rfl
  | _ => exact ok n

/-- Settles O57, by what each event at a channel makes of its table. -/
theorem stepsKeepTheCandidateTables : Obligations.StepsKeepTheCandidateTables := by
  unfold Obligations.StepsKeepTheCandidateTables
  exact fun _ _ ok run => step_keeps (P := fun s => ∀ n : HeadNo, s.chans[n].TableOk)
    (fun _ _ => State.Change.tables_ok) (fun _ _ ok => ok) ok run

end Sys2Proof.Machine
end

section
/-! SUPPORT and PROOFS. The report queues and what a channel keeps back from them (sections 5.6, 8.4 and 11.2): what
each event at a channel and each elementary change makes of them. -/

namespace Sys2Proof.Machine

/-! ## The TRACK report of a moved cross (R139) -/

theorem replaceTrack_length (r : TrackReport) (q : List ChannelReport) : (replaceTrack r q).length = q.length := by
  induction q with
  | nil => rfl
  | cons x xs ih =>
    unfold replaceTrack
    split_ifs
    · rfl
    · rw [List.length_cons, ih]; rfl

theorem replaceTrack_count (r : TrackReport) (q : List ChannelReport) :
    (replaceTrack r q).countP ChannelReport.isTrack = q.countP ChannelReport.isTrack := by
  induction q with
  | nil => rfl
  | cons x xs ih =>
    unfold replaceTrack
    split_ifs with track
    · rw [List.countP_cons_of_pos rfl, List.countP_cons_of_pos track]
    · rw [List.countP_cons_of_neg track, List.countP_cons_of_neg track, ih]

/-- The queue is in order, and a pending update stands only beside a full queue without a TRACK report. -/
def UpdateQueueOk (q : List ChannelReport) (update : Option TrackReport) : Prop :=
  QueueOk q ∧ (update.isSome = true → q.length = Config.queuePlaces ∧ q.countP ChannelReport.isTrack = 0)

theorem offerTrack_ok {q : List ChannelReport} {update : Option TrackReport} (h : UpdateQueueOk q update)
    (r : TrackReport) : UpdateQueueOk (offerTrack q update r).1 (offerTrack q update r).2 := by
  obtain ⟨⟨length, tracks⟩, kept⟩ := h
  unfold offerTrack UpdateQueueOk QueueOk
  split_ifs with track room
  · rw [replaceTrack_length, replaceTrack_count]
    exact ⟨⟨length, tracks⟩, kept⟩
  · have none : q.countP ChannelReport.isTrack = 0 := by
      simpa [List.countP_eq_zero, List.any_eq_true] using track
    dsimp only
    rw [List.length_append, List.countP_append, none]
    exact ⟨⟨room, Nat.le_refl 1⟩, fun update => absurd (kept update).1 (Nat.ne_of_lt room)⟩
  · have none : q.countP ChannelReport.isTrack = 0 := by
      simpa [List.countP_eq_zero, List.any_eq_true] using track
    exact ⟨⟨length, tracks⟩, fun _ => ⟨Nat.le_antisymm length (Nat.le_of_not_lt room), none⟩⟩

/-! ## Events at a channel -/

/-- A desk's queue is in order together with what the channel keeps back from it. -/
def Desk.QueueKept (d : Desk) : Prop := QueueOk d.queue ∧ KeptBackOk d.chan d.queue

theorem Desk.offer_queueKept {d : Desk} {r : ChannelReport} (succ : Successor) (ok : QueueOk d.queue)
    (other : r.isTrack = false) : (d.offer r succ).QueueKept := Desk.offer_queues succ ok other

/-- A desk with the queue and the channel state of another one. -/
theorem Desk.QueueKept.congr {d e : Desk} (h : d.QueueKept) (queue : e.queue = d.queue)
    (state : e.chan.state = d.chan.state) : e.QueueKept := by
  unfold Desk.QueueKept KeptBackOk
  rw [queue, state]
  exact h

/-- A desk in a state in which nothing is kept back. -/
theorem Desk.queueKept_of_idle {d : Desk} (ok : QueueOk d.queue)
    (state : d.chan.state = .off ∨ d.chan.state = .idle ∨ d.chan.state = .gather ∨ d.chan.state = .held) :
    d.QueueKept := ⟨ok, keptBackOk_idle _ state⟩

theorem Desk.queueKept_popup {d : Desk} {p : Popup} (ok : QueueOk d.queue) (popup : d.chan.state = .popup p)
    (saved : p.slot.state.UpdateOk d.queue) : d.QueueKept := ⟨ok, (keptBackOk_popup _ popup).2 saved⟩

theorem Desk.QueueKept.saved {d : Desk} (h : d.QueueKept) {p : Popup} (popup : d.chan.state = .popup p) :
    p.slot.state.UpdateOk d.queue := (keptBackOk_popup _ popup).1 h.2

theorem tipUpOffered_queueKept (v : View) {d : Desk} (h : d.QueueKept) : (tipUpOffered v d).QueueKept := by
  unfold tipUpOffered
  split
  · exact h
  · exact (gatherTipUp_offers v d).queues h.1
  · exact Desk.queueKept_of_idle h.1 (.inr (.inl rfl))
  · exact Desk.offer_queueKept _ h.1 rfl
  · next popup =>
    have saved := h.saved popup
    exact Desk.queueKept_popup h.1 rfl saved
  all_goals exact h

theorem tipDownOffered_queueKept (v : View) {d : Desk} (h : d.QueueKept) : (tipDownOffered v d).QueueKept := by
  unfold tipDownOffered
  split
  · exact h
  · exact Desk.queueKept_of_idle h.1 (.inr (.inr (.inl rfl)))
  all_goals exact h

/-- A restored activity keeps its own update back from the queue. -/
theorem restore_queueKept (v : View) (p : Popup) {d : Desk} (ok : QueueOk d.queue)
    (saved : p.slot.state.UpdateOk d.queue) : (restore v p d).QueueKept := by
  have restored : Desk.QueueKept { d with chan :=
      { d.chan with state := p.slot.state.restore, gather := p.slot.gather, crowded := p.slot.crowded } } := by
    cases state : p.slot.state with
    | idle => exact Desk.queueKept_of_idle ok (.inr (.inl rfl))
    | gather => exact Desk.queueKept_of_idle ok (.inr (.inr (.inl rfl)))
    | held => exact Desk.queueKept_of_idle ok (.inr (.inr (.inr rfl)))
    | track t => exact ⟨ok, (keptBackOk_track _ rfl).2 (saved t state)⟩
  unfold restore reconcileTip
  dsimp only
  split_ifs
  · exact tipDownOffered_queueKept v (tipUpOffered_queueKept v restored)
  · exact tipDownOffered_queueKept v restored
  · exact tipUpOffered_queueKept v restored
  · exact restored

theorem makeChoice_queueKept (v : View) (pass : PassNo) (p : Popup) {d : Desk} (ok : QueueOk d.queue)
    (saved : p.slot.state.UpdateOk d.queue) : (makeChoice v pass p d).QueueKept := by
  unfold makeChoice
  dsimp only
  split_ifs with room
  · have place : d.queue.length < 4 := of_decide_eq_true room
    have queued (r : MenuReport) : QueueOk (d.queue ++ [.menu r]) := ok.append place rfl
    have noUpdate (r : MenuReport) : p.slot.state.UpdateOk (d.queue ++ [.menu r]) :=
      fun t track update => absurd (saved t track update).1 (Nat.ne_of_lt place)
    unfold choiceAppended
    split
    · exact restore_queueKept v p (queued _) (noUpdate _)
    · next i _ =>
      cases i.act with
      | report => exact restore_queueKept v p (queued _) (noUpdate _)
      | reportAndCancel =>
        refine Desk.queueKept_of_idle (queued _) ?_
        dsimp only
        cases d.chan.tip with
        | down => exact .inr (.inr (.inr rfl))
        | up => exact .inr (.inl rfl)
      | setFilter => exact restore_queueKept v p (queued _) (noUpdate _)
      | togglePattern => exact restore_queueKept v p (queued _) (noUpdate _)
      | trackHere => exact ⟨queued _, (keptBackOk_track _ rfl).2 nofun⟩
  · have full : d.queue.length = 4 :=
      Nat.le_antisymm ok.1 (Nat.le_of_not_lt fun place => room (decide_eq_true place))
    unfold choiceHeld
    split
    · exact ⟨ok, rfl, full⟩
    · next i _ =>
      unfold fixedAction
      cases i.act <;> exact ⟨ok, rfl, full⟩

theorem passEndNotice_queueKept (pass : PassNo) (v : View) {d : Desk} (h : d.QueueKept) :
    (passEndNotice pass v d).QueueKept := by
  unfold passEndNotice
  split
  · unfold gatherPassEnd
    split_ifs with some
    · exact (resolve_offers v .passEnd pass (d := ⟨{ d.chan with gather := d.chan.gather + 1 }, d.queue, d.flags⟩)
        some).queues h.1
    · exact h.congr rfl rfl
    · exact h
  · next popup =>
    have saved := h.saved popup
    unfold popupPassEnd
    dsimp only
    split_ifs
    · exact makeChoice_queueKept v pass _ h.1 saved
    · exact Desk.queueKept_popup h.1 rfl saved
    · exact h
  · next t track =>
    have offered : UpdateQueueOk (trackOffered v pass t d.queue).1 (trackOffered v pass t d.queue).2 := by
      have before : UpdateQueueOk d.queue t.update := ⟨h.1, (keptBackOk_track _ track).1 h.2⟩
      unfold trackOffered
      split_ifs
      · exact before
      · exact offerTrack_ok before _
    rcases trackPassEnd_cases v pass t d with lost | ⟨t', update, goes⟩
    · rw [lost]; exact Desk.offer_queueKept _ offered.1 rfl
    · rw [goes]
      refine ⟨offered.1, (keptBackOk_track _ rfl).2 ?_⟩
      unfold Tracking.UpdateOk
      rw [update]
      exact offered.2
  all_goals exact h

theorem strikeOffered_queueKept (v : View) {d : Desk} (h : d.QueueKept) : (strikeOffered v d).QueueKept := by
  have moved (c : PenChannel) (struck : List (TrailEntry × Nat)) : (c.moveStrike struck).state = c.state := by
    rw [PenChannel.moveStrike_frame]
  unfold strikeOffered
  dsimp only
  split
  · exact h
  · exact h.congr rfl (moved _ _)
  · exact h.congr rfl (moved _ _)
  · next gather =>
    have taken : ∀ (hits : List Hit) (c : PenChannel), (hits.foldl (PenChannel.takeHit v.profile.lagAllocate) c).state =
        c.state := fun hits c =>
      List.foldlRecOn (motive := fun c' : PenChannel => c'.state = c.state) hits _ rfl
        fun _ same x _ => (PenChannel.takeHit_state _ _ x).trans same
    exact h.congr rfl ((moved _ _).trans (taken _ _))
  · next track =>
    have kept := (keptBackOk_track _ track).1 h.2
    refine ⟨h.1, (keptBackOk_track _ rfl).2 ?_⟩
    exact kept
  · next popup =>
    have saved := h.saved popup
    split
    · exact Desk.queueKept_popup h.1 rfl saved
    · exact h
  all_goals exact h

theorem buttonPress_queueKept (v : View) {d : Desk} (h : d.QueueKept) : (buttonPress v d).QueueKept := by
  unfold buttonPress
  split
  · exact h
  · unfold buttonPressOffered
    dsimp only
    split
    · next saved p _ save _ =>
      refine Desk.queueKept_popup h.1 rfl fun t (track : saved = .track t) => ?_
      cases state : d.chan.state <;> rw [state] at save <;> cases save <;> cases track
      exact (keptBackOk_track _ state).1 h.2
    · exact h.congr rfl rfl

theorem buttonRelease_queueKept (v : View) {d : Desk} (h : d.QueueKept) : (buttonRelease v d).QueueKept := by
  unfold buttonRelease
  split
  · exact h
  · unfold buttonReleaseOffered
    dsimp only
    split
    · next p _ popup =>
      split_ifs
      · exact makeChoice_queueKept v _ p h.1 (h.saved popup)
      · exact restore_queueKept v p h.1 (h.saved popup)
    · exact h.congr rfl rfl

theorem popupSwitch_queueKept (v : View) {d : Desk} (h : d.QueueKept) : (popupSwitch v d).QueueKept := by
  unfold popupSwitch
  split
  · next p popup =>
    have saved := h.saved popup
    split_ifs
    · exact Desk.queueKept_popup h.1 rfl saved
    · exact restore_queueKept v p h.1 (h.saved popup)
  · exact h

/-- In WAIT the held report may give way to another one that is no TRACK report (R81, R84). -/
theorem Desk.QueueKept.waitInstead {d : Desk} (h : d.QueueKept) {r : ChannelReport} {succ : Successor}
    (wait : d.chan.state = .wait r succ) {r' : ChannelReport} (succ' : Successor) (other : r'.isTrack = false) :
    (d.setState (.wait r' succ')).QueueKept := by
  refine ⟨h.1, other, ?_⟩
  have kept := h.2
  unfold KeptBackOk at kept
  rw [wait] at kept
  exact kept.2

theorem headDownNotice_queueKept (v : View) {d : Desk} (h : d.QueueKept) : (headDownNotice v d).QueueKept := by
  unfold headDownNotice
  cases state : d.chan.state with
  | off | idle => exact h
  | held => exact Desk.queueKept_of_idle h.1 (.inr (.inl rfl))
  | gather | track | popup => exact Desk.offer_queueKept _ h.1 rfl
  | wait => exact h.waitInstead state _ rfl

theorem abortAttempt_queueKept {d : Desk} (h : d.QueueKept) : (abortAttempt d).2.QueueKept := by
  unfold abortAttempt
  cases state : d.chan.state with
  | off | idle | held => exact h
  | gather | track | popup => exact Desk.offer_queueKept _ h.1 rfl
  | wait => exact h.waitInstead state _ rfl

/-- Every event at a channel keeps its queue and what it keeps back in order. -/
theorem Desk.Event.queueKept {v : View} {d e : Desk} (event : Desk.Event v d e) (h : d.QueueKept) : e.QueueKept := by
  cases event with
  | passEnd pass => exact passEndNotice_queueKept pass v h
  | recheck => unfold switchRecheck; split_ifs <;> exact h.congr rfl rfl
  | bankSwitch => exact popupSwitch_queueKept v h
  | strike => exact strikeOffered_queueKept v h
  | tipDown =>
    unfold Machine.tipDown
    split
    · exact h
    · exact tipDownOffered_queueKept v (h.congr rfl rfl)
  | tipUp =>
    unfold Machine.tipUp
    split
    · exact h
    · exact tipUpOffered_queueKept v (h.congr rfl rfl)
  | buttonPress => exact buttonPress_queueKept v h
  | buttonRelease => exact buttonRelease_queueKept v h
  | enable =>
    unfold enableChannel
    split
    · exact Desk.queueKept_of_idle h.1 (.inr (.inl rfl))
    · exact h
  | disable =>
    unfold disableChannel
    dsimp only
    split
    · exact h
    all_goals (try split_ifs with room)
    all_goals first
      | exact Desk.queueKept_of_idle h.1 (.inl rfl)
      | exact Desk.queueKept_of_idle (h.1.append (of_decide_eq_true room) rfl) (.inl rfl)
  | abort => exact abortAttempt_queueKept h
  | forceTrack =>
    unfold Machine.forceTrack
    dsimp only
    split
    · exact ⟨h.1, (keptBackOk_track _ rfl).2 nofun⟩
    · exact ⟨h.1, (keptBackOk_track _ rfl).2 nofun⟩
    · exact h
  | clearHighlight => exact h.congr rfl rfl

/-! ## A freed place (R82, R140) -/

/-- A queue without its oldest report. -/
theorem QueueOk.tail {r : ChannelReport} {q : List ChannelReport} (h : QueueOk (r :: q)) : QueueOk q :=
  ⟨Nat.le_of_succ_le h.1, Nat.le_trans (List.Sublist.countP_le (List.sublist_cons_self r q)) h.2⟩

/-- A queue whose oldest report has left takes the update kept back from it. -/
theorem Tracking.UpdateOk.queued {t : Tracking} {r : ChannelReport} {q : List ChannelReport} (h : t.UpdateOk (r :: q))
    {u : TrackReport} (update : t.update = some u) : QueueOk (q ++ [.track u]) := by
  obtain ⟨full, tracks⟩ := h (by rw [update]; rfl)
  have none : q.countP ChannelReport.isTrack = 0 :=
    Nat.eq_zero_of_le_zero (tracks ▸ List.Sublist.countP_le (List.sublist_cons_self r q))
  refine ⟨?_, ?_⟩
  · rw [List.length_append]; exact Nat.le_of_eq full
  · rw [List.countP_append, none]; exact Nat.le_refl 1

/-- A channel takes the place freed by the oldest report `r` of its queue. -/
theorem placeFreed_queueKept (v : View) {d : Desk} {r : ChannelReport} (ok : QueueOk (r :: d.queue))
    (kept : KeptBackOk d.chan (r :: d.queue)) : (placeFreed v d).QueueKept := by
  unfold placeFreed
  cases state : d.chan.state with
  | off => exact Desk.queueKept_of_idle ok.tail (.inl state)
  | idle => exact Desk.queueKept_of_idle ok.tail (.inr (.inl state))
  | gather => exact Desk.queueKept_of_idle ok.tail (.inr (.inr (.inl state)))
  | held => exact Desk.queueKept_of_idle ok.tail (.inr (.inr (.inr state)))
  | wait held succ =>
    unfold KeptBackOk at kept
    rw [state] at kept
    obtain ⟨other, full⟩ := kept
    have place : d.queue.length < 4 := Nat.lt_of_succ_le (Nat.le_of_eq full)
    refine ⟨ok.tail.append place other, ?_⟩
    dsimp only
    cases (succ.reconcile d.chan.tip) with
    | idle => exact keptBackOk_idle _ (.inr (.inl rfl))
    | held => exact keptBackOk_idle _ (.inr (.inr (.inr rfl)))
    | track => exact (keptBackOk_track _ rfl).2 nofun
  | track t =>
    have update := (keptBackOk_track _ state).1 kept
    dsimp only
    split
    · next u pending => exact ⟨update.queued pending, (keptBackOk_track _ rfl).2 nofun⟩
    · next none => exact ⟨ok.tail, (keptBackOk_track _ state).2 fun some => by rw [none] at some; cases some⟩
  | popup p =>
    have update := (keptBackOk_popup _ state).1 kept
    have nothing {q : List ChannelReport} (h : ∀ t, p.slot.state = .track t → t.update = none) :
        p.slot.state.UpdateOk q := fun t track some => by rw [h t track] at some; cases some
    dsimp only
    split
    · next t track =>
      split
      · next u pending =>
        refine Desk.queueKept_popup ((update t track).queued pending) rfl fun t' same => ?_
        cases same
        exact nofun
      · next none =>
        refine Desk.queueKept_popup ok.tail state (nothing fun t' same => ?_)
        cases track.symm.trans same
        exact none
    all_goals
      next saved =>
        exact Desk.queueKept_popup ok.tail state (nothing fun _ track => by rw [saved] at track; cases track)

/-! ## The statement -/

theorem State.desk_queueKept {s : State}
    (ok : ∀ n : HeadNo, QueueOk s.queues[n] ∧ KeptBackOk s.chans[n] s.queues[n]) (n : HeadNo) : (s.desk n).QueueKept :=
  ok n

/-- One channel's desk replaced by one in order. -/
theorem queues_set {s : State} (ok : ∀ n : HeadNo, QueueOk s.queues[n] ∧ KeptBackOk s.chans[n] s.queues[n])
    {m : HeadNo} {d : Desk} (h : d.QueueKept) (n : HeadNo) :
    QueueOk (s.queues.set m d.queue)[n] ∧ KeptBackOk (s.chans.set m d.chan)[n] (s.queues.set m d.queue)[n] := by
  rw [vec_set_get, vec_set_get]
  split_ifs
  · exact h
  · exact ok n

theorem State.Change.queues_ok {s t : State}
    (ok : ∀ n : HeadNo, QueueOk s.queues[n] ∧ KeptBackOk s.chans[n] s.queues[n])
    (change : s.Change t) (n : HeadNo) : QueueOk t.queues[n] ∧ KeptBackOk t.chans[n] t.queues[n] := by
  have nothing {c : PenChannel} (state : c.state = .off ∨ c.state = .idle) :
      QueueOk (Vector.replicate 4 ([] : List ChannelReport))[n] ∧
        KeptBackOk c (Vector.replicate 4 ([] : List ChannelReport))[n] := by
    rw [show (Vector.replicate 4 ([] : List ChannelReport))[n] = [] from Vector.getElem_replicate n.isLt]
    exact ⟨⟨Nat.zero_le _, Nat.zero_le _⟩, keptBackOk_idle _ (state.imp_right .inl)⟩
  cases change with
  | other _ same => rw [same]; exact ok n
  | desk m d event => exact queues_set ok (event.queueKept (ok m)) n
  | freed m i r rest front =>
    have freed (u : State) (queue : u.queues[m] = rest) (chan : u.chans[m] = s.chans[m]) :
        (placeFreed (u.view m) (u.desk m)).QueueKept := by
      have before := ok m
      rw [front, ← queue, ← chan] at before
      exact placeFreed_queueKept _ before.1 before.2
    have after := queues_set (m := m) ok (freed ({ s with queues := s.queues.set m rest }.send i (.chan m r))
      (vec_set_self _ _ _) rfl) n
    show QueueOk (Vector.set (s.queues.set m rest) m _)[n] ∧ KeptBackOk _ (Vector.set (s.queues.set m rest) m _)[n]
    rw [Vector.set_set]
    exact after
  | stalled m => exact queues_set (m := m) ok (headDownNotice_queueKept _ (State.desk_queueKept ok m)) n
  | standbyBank => rw [State.setStandbyBank_chans, State.setStandbyBank_queues]; exact ok n
  | softReset =>
    refine nothing (c := (perHead fun n => s.chans[n].softReset s.active n)[n]) ?_
    rw [perHead_get]
    unfold PenChannel.softReset
    cases s.chans[n].state with
    | off => exact .inl rfl
    | _ => exact .inr rfl
  | powerOn lines =>
    refine nothing (c := (State.powerOn lines).chans[n]) ?_
    rw [State.powerOn_chans]
    exact .inl rfl
  | _ => exact ok n

/-- Settles O54, by what each event at a channel makes of its queue, and what a freed place takes. -/
theorem stepsKeepTheReportQueues : Obligations.StepsKeepTheReportQueues := by
  unfold Obligations.StepsKeepTheReportQueues
  exact fun _ _ ok run => step_keeps
    (P := fun s => ∀ n : HeadNo, QueueOk s.queues[n] ∧ KeptBackOk s.chans[n] s.queues[n])
    (fun _ _ => State.Change.queues_ok) (fun _ _ ok => ok) ok run

end Sys2Proof.Machine
end

section
/-! SUPPORT and PROOFS. The levels and the channel states (sections 4.1, 5.7 and 7.6): what each event at a channel and
each elementary change makes of their agreement. -/

namespace Sys2Proof.Machine

/-! ## States and levels -/

theorem PenChannel.levelsOk_idle {c : PenChannel} {p : HeadPort}
    (h : c.state = .off ∨ c.state = .idle ∨ c.state = .held) : c.LevelsOk p := by
  unfold PenChannel.LevelsOk
  rcases h with h | h | h <;> rw [h] <;> trivial

theorem PenChannel.levelsOk_gather {c : PenChannel} {p : HeadPort} (h : c.state = .gather) :
    c.LevelsOk p ↔ c.tip = .down ∧ p.state = .up := by
  unfold PenChannel.LevelsOk; rw [h]

theorem PenChannel.levelsOk_track {c : PenChannel} {p : HeadPort} {t : Tracking} (h : c.state = .track t) :
    c.LevelsOk p ↔ p.state = .up := by
  unfold PenChannel.LevelsOk; rw [h]

theorem PenChannel.levelsOk_wait {c : PenChannel} {p : HeadPort} {r : ChannelReport} {succ : Successor}
    (h : c.state = .wait r succ) : c.LevelsOk p ↔ ∀ pos view, succ = .track pos view → p.state = .up := by
  unfold PenChannel.LevelsOk
  rw [h]
  cases succ <;> simp

/-- The levels are read of the channel's state, its tip and its button. -/
theorem PenChannel.LevelsOk.congr {c c' : PenChannel} {p : HeadPort} (h : c.LevelsOk p) (state : c'.state = c.state)
    (tip : c'.tip = c.tip) (button : c'.button = c.button) : c'.LevelsOk p := by
  unfold PenChannel.LevelsOk
  rw [state, tip, button]
  exact h

/-- An UP head that stays UP, and a DOWN head whatever becomes of it. -/
theorem PenChannel.LevelsOk.port {c : PenChannel} {p q : HeadPort} (h : c.LevelsOk p)
    (up : p.state = .up → q.state = .up) : c.LevelsOk q := by
  unfold PenChannel.LevelsOk at *
  split at h
  · exact ⟨h.1, up h.2⟩
  · exact up h
  · exact ⟨up h.1, h.2⟩
  · exact up h
  all_goals trivial

/-- Outside POPUP no level condition names the button. -/
theorem PenChannel.LevelsOk.withButton {c : PenChannel} {p : HeadPort} (h : c.LevelsOk p) (b : Button)
    (popup : b = .held ∨ ∀ q, c.state ≠ .popup q) : PenChannel.LevelsOk { c with button := b } p := by
  unfold PenChannel.LevelsOk at *
  dsimp only
  split at h
  · exact h
  · exact h
  · next q state =>
    rcases popup with rfl | no
    · exact ⟨h.1, rfl, h.2.2⟩
    · exact absurd state (no q)
  all_goals exact h

/-- Every condition on the tip asks that it be down. -/
theorem PenChannel.LevelsOk.tipDown {c : PenChannel} {p : HeadPort} (h : c.LevelsOk p) :
    PenChannel.LevelsOk { c with tip := .down } p := by
  unfold PenChannel.LevelsOk at *
  dsimp only
  split at h
  · exact ⟨rfl, h.2⟩
  · exact h
  · exact ⟨h.1, h.2.1, h.2.2.1, fun _ _ => rfl⟩
  all_goals exact h

theorem Desk.popup_levels {d : Desk} {p : HeadPort} {q : Popup} (up : p.state = .up) (button : d.chan.button = .held)
    (agrees : q.slot.Agrees d.chan.tip) : (d.setState (.popup q)).chan.LevelsOk p :=
  (PenChannel.levelsOk_popup rfl).2 ⟨up, button, agrees⟩

/-- The head of a POPUP is UP. -/
theorem PenChannel.LevelsOk.popup_up {c : PenChannel} {p : HeadPort} (h : c.LevelsOk p) {q : Popup}
    (popup : c.state = .popup q) : p.state = .up := ((PenChannel.levelsOk_popup popup).1 h).1

/-! ## Tip events -/

/-- A TIP-UP needs no tip: it ends a gather and a track, and is noted in POPUP (R75, R109, R137). -/
theorem tipUpOffered_levels {v : View} {d : Desk} (h : d.chan.HeadOk v.port) :
    (tipUpOffered v d).chan.LevelsOk v.port := by
  unfold PenChannel.HeadOk at h
  unfold tipUpOffered
  cases port : v.port.state with
  | down =>
    rw [port] at h
    dsimp only
    unfold PenChannel.LevelsOk
    rw [port]
    split at h
    · cases h
    · cases h
    · cases h
    · cases h.1
    all_goals next state => rw [state]; trivial
  | up =>
    cases state : d.chan.state with
    | gather => exact (gatherTipUp_offers v d).levels port
    | held => exact PenChannel.levelsOk_idle (.inr (.inl rfl))
    | track t => exact Desk.offer_levels _ _ _ fun _ _ _ => port
    | popup p =>
      rw [state] at h
      obtain ⟨-, button, saved⟩ := h
      exact Desk.popup_levels port button ⟨saved, fun _ noted => nomatch noted⟩
    | off => exact PenChannel.levelsOk_idle (.inl state)
    | idle => exact PenChannel.levelsOk_idle (.inr (.inl state))
    | wait => exact (PenChannel.levelsOk_wait state).2 fun _ _ _ => port

theorem tipUpOffered_tip (v : View) (d : Desk) : (tipUpOffered v d).chan.tip = d.chan.tip := by
  unfold tipUpOffered
  split
  · rfl
  · exact (gatherTipUp_offers v d).tip
  · rfl
  · exact Desk.offer_tip _ _ _
  all_goals rfl

theorem tipDownOffered_levels {v : View} {d : Desk} (h : d.chan.LevelsOk v.port) (tip : d.chan.tip = .down) :
    (tipDownOffered v d).chan.LevelsOk v.port := by
  unfold tipDownOffered
  split
  · exact h
  · next up _ => exact (PenChannel.levelsOk_gather rfl).2 ⟨tip, up⟩
  all_goals exact h

theorem tipUp_levels {v : View} {d : Desk} (h : d.chan.LevelsOk v.port) : (tipUp v d).chan.LevelsOk v.port := by
  unfold tipUp
  split
  · exact h
  · exact tipUpOffered_levels (d := { d with chan := { d.chan with tip := .up } }) h.headOk

theorem tipDown_levels {v : View} {d : Desk} (h : d.chan.LevelsOk v.port) : (tipDown v d).chan.LevelsOk v.port := by
  unfold tipDown
  split
  · exact h
  · exact tipDownOffered_levels (d := { d with chan := { d.chan with tip := .down } }) h.tipDown rfl

/-! ## Restore, choice and cancel (R119 to R124) -/

/-- A restored activity is reconciled with the tip (R122): a gather is kept only where the tip is still down. -/
theorem reconcileTip_levels {v : View} {slot : SaveSlot} {d : Desk} (up : v.port.state = .up)
    (state : d.chan.state = slot.state.restore) (agrees : slot.Agrees d.chan.tip) :
    (reconcileTip v slot d).chan.LevelsOk v.port := by
  obtain ⟨saved, released⟩ := agrees
  have head : d.chan.HeadOk v.port := by
    unfold PenChannel.HeadOk
    rw [state]
    cases slot.state with
    | idle | held => trivial
    | gather | track => exact up
  have replayed : (tipUpOffered v d).chan.LevelsOk v.port := tipUpOffered_levels head
  have kept (agree : slot.state = .gather → d.chan.tip = .down) : d.chan.LevelsOk v.port := by
    cases saved : slot.state with
    | idle => exact PenChannel.levelsOk_idle (.inr (.inl (by rw [state, saved]; rfl)))
    | held => exact PenChannel.levelsOk_idle (.inr (.inr (by rw [state, saved]; rfl)))
    | gather => exact (PenChannel.levelsOk_gather (by rw [state, saved]; rfl)).2 ⟨agree saved, up⟩
    | track t => exact (PenChannel.levelsOk_track (t := t) (by rw [state, saved]; rfl)).2 up
  unfold reconcileTip
  dsimp only
  by_cases note : slot.note = true
  · rw [if_pos note]
    split_ifs with down
    · exact tipDownOffered_levels replayed ((tipUpOffered_tip v d).trans down.1)
    · exact replayed
  · rw [if_neg note]
    split_ifs with down
    · exact tipDownOffered_levels (kept fun _ => down.1) down.1
    · exact kept fun gather => released (saved gather) (Bool.eq_false_iff.2 note)

theorem restore_levels {v : View} {p : Popup} {d : Desk} (up : v.port.state = .up)
    (agrees : p.slot.Agrees d.chan.tip) : (restore v p d).chan.LevelsOk v.port := by
  unfold restore
  exact reconcileTip_levels up rfl agrees

theorem heldIfDown_enter (t : Tip) : (heldIfDown t).enter = .idle ∨ (heldIfDown t).enter = .held := by
  cases t with
  | down => exact .inr rfl
  | up => exact .inl rfl

theorem makeChoice_levels {v : View} (pass : PassNo) {p : Popup} {d : Desk} (up : v.port.state = .up)
    (agrees : p.slot.Agrees d.chan.tip) : (makeChoice v pass p d).chan.LevelsOk v.port := by
  unfold makeChoice
  dsimp only
  split_ifs
  · unfold choiceAppended
    split
    · exact restore_levels up agrees
    · next i _ =>
      cases i.act with
      | report => exact restore_levels up agrees
      | reportAndCancel => exact PenChannel.levelsOk_idle (.inr (heldIfDown_enter _))
      | setFilter => exact restore_levels up agrees
      | togglePattern => exact restore_levels up agrees
      | trackHere => exact (PenChannel.levelsOk_track rfl).2 up
  · unfold choiceHeld
    split
    · exact (PenChannel.levelsOk_wait rfl).2 fun _ _ _ => up
    · next i _ =>
      unfold fixedAction
      cases i.act <;> exact (PenChannel.levelsOk_wait rfl).2 fun _ _ _ => up

/-! ## Events at a channel -/

theorem passEndNotice_levels (pass : PassNo) {v : View} {d : Desk} (h : d.chan.LevelsOk v.port) :
    (passEndNotice pass v d).chan.LevelsOk v.port := by
  unfold passEndNotice
  split
  · next gather =>
    unfold gatherPassEnd
    split_ifs with some
    · exact (resolve_offers v .passEnd pass (d := ⟨{ d.chan with gather := d.chan.gather + 1 }, d.queue, d.flags⟩)
        some).levels ((PenChannel.levelsOk_gather gather).1 h).2
    · exact h.congr rfl rfl rfl
    · exact h
  · next p popup =>
    obtain ⟨up, button, agrees⟩ := (PenChannel.levelsOk_popup popup).1 h
    unfold popupPassEnd
    dsimp only
    split_ifs
    · exact makeChoice_levels pass up agrees
    · exact Desk.popup_levels up button agrees
    · exact h
  · next t track =>
    have up := (PenChannel.levelsOk_track track).1 h
    rcases trackPassEnd_cases v pass t d with lost | ⟨t', -, goes⟩
    · rw [lost]; exact Desk.offer_levels _ _ _ fun _ _ _ => up
    · rw [goes]; exact (PenChannel.levelsOk_track rfl).2 up
  all_goals exact h

/-- Taking a hit touches neither the state nor the levels. -/
theorem PenChannel.takeHits_levels (lag : Bool) (hits : List Hit) (c : PenChannel) :
    (hits.foldl (PenChannel.takeHit lag) c).state = c.state ∧ (hits.foldl (PenChannel.takeHit lag) c).tip = c.tip ∧
      (hits.foldl (PenChannel.takeHit lag) c).button = c.button :=
  List.foldlRecOn (motive := fun c' : PenChannel => c'.state = c.state ∧ c'.tip = c.tip ∧ c'.button = c.button) hits _
    ⟨rfl, rfl, rfl⟩ fun c' same x _ => by rw [PenChannel.takeHit_frame]; exact same

theorem strikeOffered_levels {v : View} {d : Desk} (h : d.chan.LevelsOk v.port) :
    (strikeOffered v d).chan.LevelsOk v.port := by
  have moved {c : PenChannel} (ok : c.LevelsOk v.port) (struck : List (TrailEntry × Nat)) :
      (c.moveStrike struck).LevelsOk v.port := by
    rw [PenChannel.moveStrike_frame]; exact ok.congr rfl rfl rfl
  unfold strikeOffered
  dsimp only
  split
  · exact h
  · exact moved h _
  · exact moved h _
  · obtain ⟨state, tip, button⟩ := PenChannel.takeHits_levels v.profile.lagAllocate (hitList v d.chan.filterSet) d.chan
    exact moved (h.congr state tip button) _
  · next up _ => exact (PenChannel.levelsOk_track rfl).2 up
  · next popup =>
    obtain ⟨up, button, agrees⟩ := (PenChannel.levelsOk_popup popup).1 h
    split
    · exact Desk.popup_levels up button agrees
    · exact h
  all_goals exact h

theorem buttonPress_levels {v : View} {d : Desk} (h : d.chan.LevelsOk v.port) :
    (buttonPress v d).chan.LevelsOk v.port := by
  unfold buttonPress
  split
  · exact h
  · unfold buttonPressOffered
    dsimp only
    split
    · next saved p up save _ =>
      refine (PenChannel.levelsOk_popup rfl).2 ⟨up, rfl, fun (gather : saved = .gather) => ?_, fun tip _ => tip⟩
      cases state : d.chan.state <;> rw [state] at save <;> cases save <;> cases gather
      exact ((PenChannel.levelsOk_gather state).1 h).1
    · exact h.withButton .held (.inl rfl)

theorem buttonRelease_levels {v : View} {d : Desk} (h : d.chan.LevelsOk v.port) :
    (buttonRelease v d).chan.LevelsOk v.port := by
  unfold buttonRelease
  split
  · exact h
  · unfold buttonReleaseOffered
    dsimp only
    split
    · next p up popup =>
      have agrees := ((PenChannel.levelsOk_popup popup).1 h).2.2
      split_ifs
      · exact makeChoice_levels v.pass up agrees
      · exact restore_levels up agrees
    · next other =>
      exact h.withButton .released (.inr fun q popup => other q (h.popup_up popup) popup)

theorem popupSwitch_levels {v : View} {d : Desk} (h : d.chan.LevelsOk v.port) :
    (popupSwitch v d).chan.LevelsOk v.port := by
  unfold popupSwitch
  split
  · next p popup =>
    obtain ⟨up, button, agrees⟩ := (PenChannel.levelsOk_popup popup).1 h
    split_ifs
    · exact Desk.popup_levels up button agrees
    · exact restore_levels up agrees
  · exact h

/-- After the head-down notice the channel stands in none of GATHER, TRACK and POPUP (R84). -/
theorem headDownNotice_levels (v : View) (d : Desk) (p : HeadPort) : (headDownNotice v d).chan.LevelsOk p := by
  unfold headDownNotice
  cases state : d.chan.state with
  | off => exact PenChannel.levelsOk_idle (.inl state)
  | idle => exact PenChannel.levelsOk_idle (.inr (.inl state))
  | held => exact PenChannel.levelsOk_idle (.inr (.inl rfl))
  | gather | track | popup => exact Desk.offer_levels _ _ _ nofun
  | wait => exact (PenChannel.levelsOk_wait rfl).2 nofun

theorem abortAttempt_levels {d : Desk} {p : HeadPort} (h : d.chan.LevelsOk p) :
    (abortAttempt d).2.chan.LevelsOk p := by
  have notTrack (t : Tip) (pos : Point) (view : NameVal) (track : heldIfDown t = .track pos view) : p.state = .up := by
    cases t <;> cases track
  unfold abortAttempt
  cases state : d.chan.state with
  | off | idle | held => exact h
  | gather | track | popup => exact Desk.offer_levels _ _ _ (notTrack _)
  | wait => exact (PenChannel.levelsOk_wait rfl).2 (notTrack _)

/-- A channel that was to enter TRACK enters it at an UP head (R82). -/
theorem placeFreed_levels (v : View) {d : Desk} {p : HeadPort} (h : d.chan.LevelsOk p) :
    (placeFreed v d).chan.LevelsOk p := by
  unfold placeFreed
  cases state : d.chan.state with
  | off | idle | gather | held => exact h
  | wait r succ =>
    have up := (PenChannel.levelsOk_wait state).1 h
    dsimp only
    unfold Successor.reconcile
    split
    · exact PenChannel.levelsOk_idle (.inr (.inr rfl))
    · exact (PenChannel.levelsOk_track rfl).2 (up _ _ rfl)
    · exact PenChannel.levelsOk_idle (.inr (.inl rfl))
  | track t =>
    have up := (PenChannel.levelsOk_track state).1 h
    dsimp only
    split
    · exact (PenChannel.levelsOk_track rfl).2 up
    · exact h
  | popup q =>
    obtain ⟨up, button, saved, released⟩ := (PenChannel.levelsOk_popup state).1 h
    dsimp only
    split
    · split
      · exact (PenChannel.levelsOk_popup rfl).2 ⟨up, button, nofun, released⟩
      · exact h
    all_goals exact h

/-- Every event at a channel keeps its state and its levels in agreement. -/
theorem Desk.Event.levels {v : View} {d e : Desk} (event : Desk.Event v d e) (h : d.chan.LevelsOk v.port) :
    e.chan.LevelsOk v.port := by
  cases event with
  | passEnd pass => exact passEndNotice_levels pass h
  | recheck => unfold switchRecheck; split_ifs <;> exact h.congr rfl rfl rfl
  | bankSwitch => exact popupSwitch_levels h
  | strike => exact strikeOffered_levels h
  | tipDown => exact tipDown_levels h
  | tipUp => exact tipUp_levels h
  | buttonPress => exact buttonPress_levels h
  | buttonRelease => exact buttonRelease_levels h
  | enable =>
    unfold enableChannel
    split
    · exact PenChannel.levelsOk_idle (.inr (.inl rfl))
    · exact h
  | disable =>
    unfold disableChannel
    dsimp only
    split
    · exact h
    all_goals (try split_ifs) <;> exact PenChannel.levelsOk_idle (.inl rfl)
  | abort => exact abortAttempt_levels h
  | forceTrack =>
    unfold Machine.forceTrack
    dsimp only
    split
    · next up _ => exact (PenChannel.levelsOk_track rfl).2 up
    · next up _ => exact (PenChannel.levelsOk_track rfl).2 up
    · exact h
  | clearHighlight => exact h.congr rfl rfl rfl

/-! ## The statement -/

/-- A move of a port leaves an UP head UP. -/
theorem HeadPort.Move.up {b : Bank} {n : HeadNo} {p q : HeadPort} (move : HeadPort.Move b n p q) (up : p.state = .up) :
    q.state = .up := by
  cases move with
  | stay => exact up
  | forward ps =>
    exact HeadPort.pump_keeps (P := fun h => h.state = .up) (fun _ _ same _ => same) ps p up
  | complete => exact up
  | restart => rfl

theorem State.Change.levels_ok {s t : State} (ok : ∀ n : HeadNo, s.chans[n].LevelsOk s.ports[n]) (change : s.Change t)
    (n : HeadNo) : t.chans[n].LevelsOk t.ports[n] := by
  have put {m : HeadNo} {c : PenChannel} (new : PenChannel.LevelsOk c s.ports[m]) :
      (s.chans.set m c)[n].LevelsOk s.ports[n] :=
    forall_set (P := fun k c => PenChannel.LevelsOk c s.ports[k]) ok new n
  cases change with
  | other _ same => rw [same]; exact ok n
  | desk m d event => exact put (event.levels (ok m))
  | freed m i r rest => exact put (placeFreed_levels _ (ok m))
  | stalled m =>
    show (s.chans.set m _)[n].LevelsOk (s.ports.set m _)[n]
    rw [vec_set_get, vec_set_get]
    split_ifs
    · exact headDownNotice_levels _ _ _
    · exact ok n
  | ports ps moves => exact (ok n).port (moves n).up
  | standbyBank => rw [State.setStandbyBank_chans, State.setStandbyBank_ports]; exact ok n
  | exchangeBanks =>
    rw [State.exchangeBanks_ports]
    refine PenChannel.LevelsOk.port (ok n) fun up => ?_
    unfold HeadPort.trim
    rw [up]
  | softReset =>
    refine PenChannel.levelsOk_idle (c := (perHead fun n => s.chans[n].softReset s.active n)[n]) ?_
    rw [perHead_get]
    unfold PenChannel.softReset
    cases s.chans[n].state with
    | off => exact .inl rfl
    | _ => exact .inr (.inl rfl)
  | powerOn lines =>
    refine PenChannel.levelsOk_idle (c := (State.powerOn lines).chans[n]) ?_
    rw [State.powerOn_chans]
    exact .inl rfl
  | _ => exact ok n

/-- Settles O58, by what each event at a channel makes of its levels, a stall with the head-down notice among them. -/
theorem stepsKeepTheLevels : Obligations.StepsKeepTheLevels := by
  unfold Obligations.StepsKeepTheLevels
  exact fun _ _ ok run => step_keeps (P := fun s => ∀ n : HeadNo, s.chans[n].LevelsOk s.ports[n])
    (fun _ _ => State.Change.levels_ok) (fun _ _ ok => ok) ok run

end Sys2Proof.Machine
end

section
/-! SUPPORT and PROOFS. What holds the input (section 1.5): every step settles the input, or changes neither the record
in hand nor the reply space. -/

namespace Sys2Proof.Machine

/-! ## Settling -/

/-- The waiting records are taken until one of them holds the input, or none is left. -/
theorem State.takeOffered_inputOk (rs : List Record) {s : State} (offered : s.offered = [])
    (hand : s.inHand = none ∨ s.InputHeld) : (s.takeOffered rs).InputOk := by
  induction rs generalizing s with
  | nil => exact hand.imp (fun empty => ⟨empty, offered⟩) id
  | cons r rs ih =>
    unfold State.takeOffered
    split
    · next held =>
      have input := hand.resolve_left fun empty => nomatch held.symm.trans empty
      exact .inr input
    · exact ih ((State.closeHand_offered _).trans ((s.takeRecord_offered r).trans offered))
        (State.closeHand_none_or_held _)

theorem State.settle_inputOk (s : State) : s.settle.InputOk :=
  State.takeOffered_inputOk s.offered rfl s.closeHand_none_or_held

theorem State.offerRecord_inputOk (s : State) (r : Record) : (s.offerRecord r).InputOk := State.settle_inputOk _

/-! ## Events at a channel -/

/-- An event that does not leave POPUP touches neither the record in hand nor the reply space. -/
theorem State.InputOk.onDesk {s : State} {f : View → Desk → Desk} (h : s.InputOk) (n : HeadNo)
    (popup : (s.desk n).chan.state.isPopup = false ∨ (f (s.view n) (s.desk n)).chan.state.isPopup = true) :
    (s.onDesk n f).InputOk := by
  rw [State.onDesk_within rfl (popup.imp_right .inl)]
  exact h.congr rfl rfl rfl

theorem strikeOffered_isPopup (v : View) (d : Desk) :
    d.chan.state.isPopup = false ∨ (strikeOffered v d).chan.state.isPopup = true := by
  unfold strikeOffered
  dsimp only
  cases state : d.chan.state with
  | popup p =>
    right
    cases v.port.state with
    | down => exact congrArg ChanState.isPopup state
    | up => cases d.chan.button with
      | held => rfl
      | released => exact congrArg ChanState.isPopup state
  | _ => exact .inl rfl

theorem tipDown_isPopup (v : View) (d : Desk) :
    d.chan.state.isPopup = false ∨ (tipDown v d).chan.state.isPopup = true := by
  cases state : d.chan.state with
  | popup p =>
    right
    unfold tipDown tipDownOffered
    dsimp only
    rw [state]
    cases d.chan.tip with
    | down => exact congrArg ChanState.isPopup state
    | up => cases v.port.state <;> rfl
  | _ => exact .inl rfl

theorem tipUp_isPopup (v : View) (d : Desk) :
    d.chan.state.isPopup = false ∨ (tipUp v d).chan.state.isPopup = true := by
  cases state : d.chan.state with
  | popup p =>
    right
    unfold tipUp tipUpOffered
    dsimp only
    rw [state]
    cases d.chan.tip with
    | up => exact congrArg ChanState.isPopup state
    | down => cases v.port.state <;> rfl
  | _ => exact .inl rfl

theorem buttonPress_isPopup (v : View) (d : Desk) :
    d.chan.state.isPopup = false ∨ (buttonPress v d).chan.state.isPopup = true := by
  cases state : d.chan.state with
  | popup p =>
    right
    unfold buttonPress buttonPressOffered
    dsimp only
    rw [state]
    cases d.chan.button with
    | held => exact congrArg ChanState.isPopup state
    | released => cases v.port.state <;> rfl
  | _ => exact .inl rfl

/-! ## The other events -/

theorem State.InputOk.completion {s : State} (h : s.InputOk) (n : HeadNo) : (s.completion n).InputOk := by
  unfold State.completion
  split
  · exact h.congr rfl rfl rfl
  · split_ifs
    · exact h.congr rfl rfl rfl
    · exact State.settle_inputOk _

theorem State.InputOk.stallExpiry {s : State} (h : s.InputOk) (n : HeadNo) : (s.stallExpiry n).InputOk := by
  unfold State.stallExpiry
  split
  · exact State.settle_inputOk _
  · exact h

theorem State.setStandbyBank_room (s : State) (b : Bank) : (s.setStandbyBank b).replyRoom = s.replyRoom := by
  unfold State.replyRoom State.replySpacesUsed
  rw [State.setStandbyBank_replies, State.setStandbyBank_reserved]

theorem State.InputOk.setStandbyBank {s : State} (h : s.InputOk) (b : Bank) : (s.setStandbyBank b).InputOk :=
  h.congr (State.setStandbyBank_inHand s b) (State.setStandbyBank_offered s b) (s.setStandbyBank_room b)

theorem State.InputOk.copyMove {s : State} (h : s.InputOk) : s.copyMove.InputOk := by
  unfold State.copyMove
  split
  · exact h
  · split <;> exact (h.setStandbyBank _).congr rfl rfl rfl

theorem State.InputOk.grant {s : State} (h : s.InputOk) (amount : Nat) : (s.grant amount).InputOk := by
  unfold State.grant
  split_ifs <;> exact h.congr rfl rfl rfl

/-! ## The statement -/

theorem inputOk_of_offerRecord {s t : State} {r : Record}
    (run : (.next (s.offerRecord r) : Host.Outcome State Fault Refusal) = .next t) : t.InputOk := by
  cases run
  exact s.offerRecord_inputOk r

theorem exec_inputOk {c : Instr} {s t : State} (h : s.InputOk) (run : exec c s = .next t) : t.InputOk := by
  cases c with
  | powerOnReset lines => cases run; exact .inl ⟨rfl, rfl⟩
  | completion n => cases run; exact h.completion n
  | stallTimerExpiry n => cases run; exact h.stallExpiry n
  | strike n => cases run; exact h.onDesk n (strikeOffered_isPopup _ _)
  | tipDown n => cases run; exact h.onDesk n (tipDown_isPopup _ _)
  | tipUp n => cases run; exact h.onDesk n (tipUp_isPopup _ _)
  | buttonPress n => cases run; exact h.onDesk n (buttonPress_isPopup _ _)
  | buttonRelease n => cases run; exact State.settle_inputOk _
  | copyMove => cases run; exact h.copyMove
  | creditGrant w => cases run; exact h.grant _
  | transmissionEnd => cases run; exact h.congr rfl rfl rfl
  | selection => cases run; exact State.settle_inputOk _
  | _ => exact inputOk_of_offerRecord run

/-- Settles O56: the events that can end a hold settle the input, and the others touch nothing that holds it. -/
theorem stepsHoldTheInputForACause : Obligations.StepsHoldTheInputForACause := by
  unfold Obligations.StepsHoldTheInputForACause
  intro s t ok run
  unfold step at run
  cases queue : s.pending with
  | nil => rw [queue] at run; cases run; exact ok
  | cons c cs =>
    rw [queue] at run
    have popped : State.InputOk { s with pending := cs } := ok.congr rfl rfl rfl
    exact exec_inputOk popped run

end Sys2Proof.Machine
end

section
/-! SUPPORT and PROOFS. The queue of commands, and the resets (sections 1.6, 4.6 and 10.8). -/

namespace Sys2Proof.Machine

/-! ## The queue of commands -/

/-- No elementary change touches the queue. -/
theorem State.Change.pending {s t : State} (change : s.Change t) : t.pending = s.pending := by
  cases change with
  | other _ same => rw [same]
  | standbyBank b => exact s.setStandbyBank_pending b
  | _ => rfl

theorem exec_pending {c : Instr} {s t : State} (run : exec c s = .next t) : t.pending = s.pending :=
  (exec_changes run).keeps (P := fun u => u.pending = s.pending) (fun _ _ same change => change.pending.trans same) rfl

theorem exec_completes (c : Instr) (s : State) : ∃ t, exec c s = .next t := by
  cases c <;> exact ⟨_, rfl⟩

/-- Settles O1. -/
theorem stepRunsTheFrontCommand : Obligations.StepRunsTheFrontCommand := by
  unfold Obligations.StepRunsTheFrontCommand
  intro s c cs queue
  unfold step
  rw [queue]

/-- Settles O2: every arm of `exec` ends in a next state, and none of the changes it makes touches the queue. -/
theorem everyCommandCompletes : Obligations.EveryCommandCompletes := by
  unfold Obligations.EveryCommandCompletes
  refine ⟨fun c s => ?_, fun s idle => ?_⟩
  · obtain ⟨t, run⟩ := exec_completes c s
    exact ⟨t, run, exec_pending run⟩
  · unfold step
    rw [idle]

/-! ## Power-on reset -/

/-- The default patterns are of kind NONE and not active (R149, R161). -/
theorem Bank.defaults_flags : Bank.defaults.pattern.map (·.active) = Vector.replicate 16 false := by
  show (Vector.replicate 16 (⟨0, 0, false, 1, .replicate 6 ⟨false, 0⟩⟩ : PatternEntry)).map (·.active) = _
  rw [Vector.map_replicate]

/-- Settles O3: the power-on state field by field, each channel as its lines have it. -/
theorem powerOnResetState : Obligations.PowerOnResetState := by
  unfold Obligations.PowerOnResetState
  intro lines s
  refine ⟨{ State.powerOn lines with pending := s.pending }, rfl, fun n => ?_, ?_⟩
  · show (State.powerOn lines).chans[n] = _
    rw [State.powerOn_chans]
    have set : Bank.defaults.profile[n].initFilter = 0 := by
      show ProfileEntry.initFilter (Vector.replicate 4 _)[n] = 0
      rw [show ∀ p : ProfileEntry, (Vector.replicate 4 p)[n] = p from fun p => Vector.getElem_replicate n.isLt]
    unfold PenChannel.powerOn
    rw [set]
    rfl
  · unfold State.powerOn
    rw [Bank.defaults_flags]
    rfl

/-- Settles O60, part by part: nothing is queued, in hand or in a trail, and every channel is OFF. -/
theorem powerOnStateIsSound : Obligations.PowerOnStateIsSound := by
  unfold Obligations.PowerOnStateIsSound
  have off (n : HeadNo) : State.reset.chans[n].state = .off := by
    unfold State.reset
    rw [State.powerOn_chans]
    rfl
  have queue (n : HeadNo) : State.reset.queues[n] = [] := Vector.getElem_replicate n.isLt
  exact {
    ports := fun n => by
      unfold State.reset
      rw [State.powerOn_ports]
      exact HeadPort.ok_of_empty rfl rfl rfl
    input := .inl ⟨rfl, rfl⟩
    queues := fun n => by
      rw [queue]
      unfold KeptBackOk
      rw [off]
      exact ⟨⟨Nat.zero_le _, Nat.zero_le _⟩, trivial⟩
    replies := ⟨Nat.zero_le _, rfl⟩
    copy := iff_of_false nofun nofun
    counts := ⟨Nat.zero_le _, State.faultCountsOk_of_zero rfl⟩
    trackers := Tracker.ok_empty
    tables := fun n => by
      unfold State.reset
      rw [State.powerOn_chans]
      exact (PenChannel.clearTable_empty (PenChannel.powerOn Bank.defaults n _)).tableOk_of_same rfl
    levels := fun n => PenChannel.levelsOk_idle (.inl (off n))
    bank := Bank.defaults_validate }

/-! ## RESTART (R178) -/

theorem exec_restart {s : State} {h : DirHeader} (takes : s.Takes h) :
    exec (.restart h) s = .next (s.softReset.concluded h 15 .done .none) :=
  exec_directive_concluded (r := .ok s.softReset) (d := .restart) takes rfl rfl rfl

theorem PenChannel.softReset_eq (b : Bank) (n : HeadNo) (c : PenChannel) :
    c.softReset b n =
      { state := if c.state = .off then .off else .idle, tip := c.tip, button := c.button, lastStrike := none,
        table := .replicate 4 none, tree := ⟨.high, true, true⟩, gather := 0, crowded := false, highlight := none,
        filterSet := b.profile[n].initFilter } := by
  unfold PenChannel.softReset
  cases c.state <;> rfl

theorem State.softReset_eq {s : State} (free : s.inHand = none) :
    s.softReset =
      { s with
        passState := .closed, passCount := 0, trackers := .replicate 4 Tracker.empty,
        flags := s.active.pattern.map (·.active), chans := perHead fun n => s.chans[n].softReset s.active n,
        standby := if s.copyPos = none then s.standby else .incomplete,
        pendingSwitch := none, copyPos := none, queues := .replicate 4 [], replies := [], reserved := false,
        faultCounts := .replicate 12 0, faultPending := noPending, ringPtr := 0 } := by
  have copied : (if s.copyPos.isSome = true then Standby.incomplete else s.standby) =
      if s.copyPos = none then s.standby else .incomplete := by
    cases s.copyPos <;> rfl
  unfold State.softReset
  rw [copied, free]

/-- Settles O4: the soft reset field by field, then `concluded`. -/
theorem restartResetsLiveState : Obligations.RestartResetsLiveState := by
  unfold Obligations.RestartResetsLiveState
  intro h s takes
  refine ⟨_, exec_restart takes, fun n => ?_, ?_⟩
  · rw [← PenChannel.softReset_eq]
    unfold State.concluded
    split_ifs <;> exact perHead_get _ n
  · rw [State.softReset_eq takes.1.hand]
    unfold State.concluded
    by_cases want : h.want = true
    · rw [if_pos want, if_pos want]; rfl
    · rw [if_neg want, if_neg want]; rfl

end Sys2Proof.Machine
end

section
/-! SUPPORT and PROOFS. What an event at a Pen Channel leaves of the part, in the words of the statements; and the
directives on the banks, the channels, the flags and the status (sections 10.4 to 10.8). -/

namespace Sys2Proof.Machine

/-! ## The words of the statements -/

theorem heldIfDown_eq (t : Tip) : heldIfDown t = byTip t := by
  cases t <;> rfl

theorem Successor.enter_eq (succ : Successor) : succ.enter = succ.entered := by
  cases succ <;> rfl

theorem Saved.restore_eq (saved : Saved) : saved.restore = saved.resumed := by
  cases saved <;> rfl

/-- Nothing in hand ends when channel `n` leaves its state: it is not in POPUP, or the hand holds no delivery of its
pop-up region (R113). -/
def State.Quiet (s : State) (n : HeadNo) : Prop :=
  s.chans[n].state.isPopup = false ∨ s.inHand.map (InHand.endPopup n) = s.inHand

theorem State.quiet_of_free {s : State} (free : s.inHand = none) (n : HeadNo) : s.Quiet n := .inr (by rw [free]; rfl)

theorem State.quiet_of_state {s : State} {n : HeadNo} {st : ChanState} (state : s.chans[n].state = st)
    (notPopup : st.isPopup = false) : s.Quiet n := .inl (by rw [state]; exact notPopup)

theorem State.Quiet.putDesk {s : State} {n : HeadNo} (quiet : s.Quiet n) (d : Desk) :
    s.putDesk n d =
      { s with chans := s.chans.set n d.chan, queues := s.queues.set n d.queue, flags := d.flags } := by
  have hand (left : Bool) : (if s.chans[n].state.isPopup && left then s.inHand.map (InHand.endPopup n) else s.inHand) =
      s.inHand := by
    rcases quiet with state | same
    · rw [state]; rfl
    · rw [same, ite_self]
  unfold State.putDesk
  rw [hand]

theorem State.Quiet.chan_queue {s : State} {n : HeadNo} (quiet : s.Quiet n) (c : PenChannel) (q : List ChannelReport) :
    s.putDesk n { s.desk n with chan := c, queue := q } = (s.withChan n c).withQueue n q := quiet.putDesk _

theorem State.Quiet.chan {s : State} {n : HeadNo} (quiet : s.Quiet n) (c : PenChannel) :
    s.putDesk n { s.desk n with chan := c } = s.withChan n c := by
  have same : s.queues.set n s.queues[n] = s.queues := Vector.set_getElem_self n.isLt
  rw [quiet.putDesk]
  show { s with chans := s.chans.set n c, queues := s.queues.set n s.queues[n] } = _
  rw [same]
  rfl

/-- A report offered by a channel (R80). -/
theorem State.Quiet.offer {s : State} {n : HeadNo} (quiet : s.Quiet n) (c : PenChannel) (r : ChannelReport)
    (succ : Successor) : s.putDesk n (Desk.offer { s.desk n with chan := c } r succ) = s.offers n c r succ := by
  unfold State.offers
  split_ifs with room
  · rw [Desk.offer_room r succ room, Successor.enter_eq]
    exact quiet.chan_queue _ _
  · rw [Desk.offer_full r succ room]
    exact quiet.chan _

/-! ## COPY-BANK and the moves of a copy (R167) -/

theorem exec_copyBank {s : State} {h : DirHeader} {r : Result} (takes : s.Takes h) (answer : s.copyBank = r) :
    exec (.copyBank h) s = .next (r.state.concluded h 3 r.outcome r.data) :=
  exec_directive_concluded (d := .copyBank) takes rfl rfl (answer ▸ rfl)

theorem exec_clearBank {s : State} {h : DirHeader} {r : Result} (takes : s.Takes h) (answer : s.clearBank = r) :
    exec (.clearBank h) s = .next (r.state.concluded h 4 r.outcome r.data) :=
  exec_directive_concluded (d := .clearBank) takes rfl rfl (answer ▸ rfl)

/-- The table after table `t` is the one with the next code, and GLOBAL is the last (R161). -/
theorem TableId.next?_eq (t : TableId) :
    t.next? = if t = .global then none else TableId.ofCode (BitVec.ofNat 4 (t.code + 1)) := by
  cases t <;> rfl

theorem TableId.next?_eq_none (t : TableId) : t.next? = none ↔ t = .global := by
  cases t <;> simp [TableId.next?]

theorem State.copyMove_idle {s : State} (idle : s.copyPos = none) : s.copyMove = s := by
  unfold State.copyMove; rw [idle]

theorem State.copyMove_at {s : State} {t : TableId} (pos : s.copyPos = some t) :
    s.copyMove =
      { s.setStandbyBank (s.standbyBank.copyTable s.active t) with
        copyPos := if t = .global then none else TableId.ofCode (BitVec.ofNat 4 (t.code + 1)),
        standby := if t = .global then .ready else s.standby } := by
  rw [← TableId.next?_eq]
  unfold State.copyMove
  rw [pos]
  dsimp only
  cases next : t.next? with
  | none => rw [if_pos ((TableId.next?_eq_none t).1 next)]
  | some u =>
    have before : t ≠ .global := fun last => nomatch next.symm.trans ((TableId.next?_eq_none t).2 last)
    rw [if_neg before]
    dsimp only
    rw [State.setStandbyBank_standby]

/-- A copy in flight into the standby: the bank `b` as far as it has come, and the table to be moved next. -/
def State.midCopy (s : State) (b : Bank) (t : TableId) : State :=
  { s.setStandbyBank b with copyPos := some t, standby := .copying }

theorem State.midCopy_active (s : State) (b : Bank) (t : TableId) : (s.midCopy b t).active = s.active :=
  s.setStandbyBank_active b

theorem State.midCopy_standbyBank (s : State) (b : Bank) (t : TableId) : (s.midCopy b t).standbyBank = b :=
  s.setStandbyBank_standbyBank b

theorem State.midCopy_setStandbyBank (s : State) (b c : Bank) (t : TableId) :
    (s.midCopy b t).setStandbyBank c = s.midCopy c t := by
  unfold State.midCopy State.setStandbyBank
  cases s.selector <;> rfl

/-- A move before the last one leaves the copy in flight at the next table. -/
theorem State.midCopy_move (s : State) (b : Bank) {t u : TableId} (next : t.next? = some u) :
    exec .copyMove (s.midCopy b t) = .next (s.midCopy (b.copyTable s.active t) u) := by
  show Host.Outcome.next (State.copyMove _) = _
  unfold State.copyMove
  rw [show (s.midCopy b t).copyPos = some t from rfl]
  dsimp only
  rw [next, State.midCopy_active, State.midCopy_standbyBank, State.midCopy_setStandbyBank]
  rfl

/-- The move of GLOBAL ends the copy. -/
theorem State.midCopy_end (s : State) (b : Bank) :
    exec .copyMove (s.midCopy b .global) =
      .next { s.setStandbyBank (b.copyTable s.active .global) with copyPos := none, standby := .ready } := by
  show Host.Outcome.next (State.copyMove _) = _
  unfold State.copyMove
  rw [show (s.midCopy b .global).copyPos = some .global from rfl]
  dsimp only [TableId.next?]
  rw [State.midCopy_active, State.midCopy_standbyBank, State.midCopy_setStandbyBank]
  rfl

/-- The tables moved one after another are the whole bank. -/
theorem Bank.copyTables_all (b src : Bank) :
    [.headmap, .profile, .classes, .filter, .permit, .menu, .item, .pattern, .scale, .ring, .global].foldl
      (fun b t => Bank.copyTable b src t) b = src := by
  simp only [List.foldl_cons, List.foldl_nil, Bank.copyTable]

theorem execAll_cons {c : Instr} {cs : List Instr} {s t : State} (run : exec c s = .next t) :
    execAll (c :: cs) s = execAll cs t := by
  rw [execAll, run]

/-- Eleven moves from HEADMAP on. -/
theorem State.midCopy_moves (s : State) (b : Bank) :
    execAll (List.replicate 11 .copyMove) (s.midCopy b .headmap) =
      .next { s.setStandbyBank s.active with copyPos := none, standby := .ready } := by
  have whole := Bank.copyTables_all b s.active
  simp only [List.foldl_cons, List.foldl_nil] at whole
  iterate 10 rw [List.replicate_succ, execAll_cons (s.midCopy_move _ rfl)]
  rw [List.replicate_succ, execAll_cons (s.midCopy_end _), whole]
  rfl

/-- Settles O40, by the moves in table order. -/
theorem copyAndClearMakeTheStandbyWhole : Obligations.CopyAndClearMakeTheStandbyWhole := by
  unfold Obligations.CopyAndClearMakeTheStandbyWhole
  refine ⟨⟨fun h s takes => ?_, fun s idle => ?_, fun s t pos => ?_, fun s pos copying => ?_⟩, fun h s takes => ?_,
    Bank.defaults_validate⟩
  · rw [exec_copyBank takes rfl]
    unfold State.copyBank
    split_ifs <;> rfl
  · exact congrArg Host.Outcome.next (State.copyMove_idle idle)
  · exact congrArg Host.Outcome.next (State.copyMove_at pos)
  · have start : s = s.midCopy s.standbyBank .headmap := by
      unfold State.midCopy State.setStandbyBank State.standbyBank
      cases s
      cases pos
      cases copying
      rename_i selector _ _ _ _ _ _ _ _ _ _
      cases selector <;> rfl
    rw [start, State.midCopy_moves, ← start]
  · rw [exec_clearBank takes rfl]
    unfold State.clearBank
    split_ifs <;> rfl

end Sys2Proof.Machine
end

section
/-! SUPPORT and PROOFS. The directives that act on a channel, on the live flags, and those that report the state
(sections 10.7 and 10.8). -/

namespace Sys2Proof.Machine

/-! ## ABORT-ATTEMPT (R83) -/

theorem exec_abortAttempt {s : State} {h : DirHeader} {ch : BitVec 8} {r : Result} (takes : s.Takes h)
    (answer : s.abortAttempt ch = r) :
    exec (.abortAttempt h ch) s = .next (r.state.concluded h 9 r.outcome r.data) :=
  exec_directive_concluded (d := .abortAttempt ch) takes rfl rfl (answer ▸ rfl)

section
variable {s : State} {ch : BitVec 8} {n : HeadNo} (names : ch.toNat = n.val)
include names

theorem State.abortAttempt_refused
    (rest : s.chans[n].state = .off ∨ s.chans[n].state = .idle ∨ s.chans[n].state = .held) :
    s.abortAttempt ch = .no .badState s := by
  refine State.toChannel_refused names ?_
  have stays : Machine.abortAttempt (s.desk n) = (.refused .badState, s.desk n) := by
    unfold Machine.abortAttempt
    rcases rest with state | state | state <;> rw [show (s.desk n).chan.state = _ from state]
  rw [stays]

/-- An activity that is aborted is reported at its end. -/
theorem State.abortAttempt_offers {c : PenChannel} (free : s.inHand = none)
    (ends : Machine.abortAttempt (s.desk n) =
      (.done, Desk.offer { s.desk n with chan := c } (.aborted .host) (heldIfDown s.chans[n].tip))) :
    s.abortAttempt ch = .ok (s.offers n c (.aborted .host) (byTip s.chans[n].tip)) := by
  unfold State.abortAttempt
  rw [State.toChannel_named names (by rw [ends]), (State.quiet_of_free free n).offer, heldIfDown_eq]
  rfl

theorem State.abortAttempt_gather (free : s.inHand = none)
    (gather : s.chans[n].state = .gather ∨ ∃ p, s.chans[n].state = .popup p) :
    s.abortAttempt ch = .ok (s.offers n s.chans[n].emptied (.aborted .host) (byTip s.chans[n].tip)) := by
  refine State.abortAttempt_offers names free ?_
  unfold Machine.abortAttempt abortClear
  rcases gather with state | ⟨p, state⟩ <;> rw [show (s.desk n).chan.state = _ from state] <;> rfl

theorem State.abortAttempt_track (free : s.inHand = none) (track : ∃ t, s.chans[n].state = .track t) :
    s.abortAttempt ch = .ok (s.offers n s.chans[n] (.aborted .host) (byTip s.chans[n].tip)) := by
  refine State.abortAttempt_offers names free ?_
  obtain ⟨t, state⟩ := track
  unfold Machine.abortAttempt abortClear
  rw [show (s.desk n).chan.state = _ from state]
  rfl

/-- In WAIT the report of the abort takes the place of the held report. -/
theorem State.abortAttempt_wait (free : s.inHand = none) (wait : ∃ r q, s.chans[n].state = .wait r q) :
    s.abortAttempt ch =
      .ok (s.withChan n { s.chans[n] with state := .wait (.aborted .host) (byTip s.chans[n].tip) }) := by
  obtain ⟨r, q, state⟩ := wait
  refine State.toChannel_chan free names ?_
  unfold Machine.abortAttempt
  rw [show (s.desk n).chan.state = _ from state, ← heldIfDown_eq]
  rfl

end

/-- Settles O45, by the number the directive names and the state the channel stands in. -/
theorem abortAttemptEndsTheActivity : Obligations.AbortAttemptEndsTheActivity := by
  unfold Obligations.AbortAttemptEndsTheActivity
  refine fun h ch s takes => ⟨fun above => ?_, fun n names => ⟨fun rest => ?_, fun gather => ?_, fun track => ?_,
    fun wait => ?_⟩⟩
  · exact exec_abortAttempt takes (State.toChannel_above above)
  · exact exec_abortAttempt takes (State.abortAttempt_refused names rest)
  · exact exec_abortAttempt takes (State.abortAttempt_gather names takes.1.hand gather)
  · exact exec_abortAttempt takes (State.abortAttempt_track names takes.1.hand track)
  · exact exec_abortAttempt takes (State.abortAttempt_wait names takes.1.hand wait)

/-! ## FORCE-TRACK (R130) -/

theorem exec_forceTrack {s : State} {h : DirHeader} {ch : BitVec 8} {x y : Word} {view : NameVal} {r : Result}
    (takes : s.Takes h) (answer : s.forceTrack ch x y view = r) :
    exec (.forceTrack h ch x y view) s = .next (r.state.concluded h 10 r.outcome r.data) :=
  exec_directive_concluded (d := .forceTrack ch x y view) takes rfl rfl (answer ▸ rfl)

/-- A track can be forced: the channel rests, enabled, at an UP head. -/
def CanForce (c : ChanState) (p : HeadPort) : Prop := (c = .idle ∨ c = .held) ∧ p.state = .up

theorem forceTrack_can {v : View} {d : Desk} (x y : Word) (view : NameVal) (can : CanForce d.chan.state v.port) :
    forceTrack v x y view d =
      (.done, .start (clampPoint x.toInt y.toInt),
        d.setState (.track (.start (clampPoint x.toInt y.toInt) view))) := by
  obtain ⟨idle | held, up⟩ := can
  · unfold forceTrack; rw [up, idle]
  · unfold forceTrack; rw [up, held]

theorem forceTrack_cannot {v : View} {d : Desk} (x y : Word) (view : NameVal)
    (cannot : ¬ CanForce d.chan.state v.port) : forceTrack v x y view d = (.refused .badState, .none, d) := by
  unfold forceTrack
  split
  · next up idle => exact absurd ⟨.inl idle, up⟩ cannot
  · next up held => exact absurd ⟨.inr held, up⟩ cannot
  · rfl

/-- Settles O46, by the number the directive names and whether a track can begin. -/
theorem forceTrackBeginsATrack : Obligations.ForceTrackBeginsATrack := by
  unfold Obligations.ForceTrackBeginsATrack
  refine fun h ch x y view s takes => ⟨fun above => ?_, fun n names => ⟨fun cannot => ?_, fun can => ?_⟩⟩
  · exact exec_forceTrack takes (State.toChannel_above above)
  · exact exec_forceTrack takes (State.toChannel_refused names (forceTrack_cannot x y view cannot))
  · exact exec_forceTrack takes (State.toChannel_chan takes.1.hand names (forceTrack_can x y view can))

/-! ## CLEAR-HIGHLIGHT (R86) and SET-PATTERN-FLAG (R176) -/

theorem exec_clearHighlight {s : State} {h : DirHeader} {ch : BitVec 8} {r : Result} (takes : s.Takes h)
    (answer : s.clearHighlight ch = r) :
    exec (.clearHighlight h ch) s = .next (r.state.concluded h 11 r.outcome r.data) :=
  exec_directive_concluded (d := .clearHighlight ch) takes rfl rfl (answer ▸ rfl)

theorem exec_setPatternFlag {s : State} {h : DirHeader} {on : Bool} {pattern : BitVec 8} {r : Result}
    (takes : s.Takes h) (answer : s.setPatternFlag on pattern = r) :
    exec (.setPatternFlag h on pattern) s = .next (r.state.concluded h 12 r.outcome r.data) :=
  exec_directive_concluded (d := .setPatternFlag on pattern) takes rfl rfl (answer ▸ rfl)

theorem State.setPatternFlag_above {s : State} {on : Bool} {pattern : BitVec 8} (above : 15 < pattern.toNat) :
    s.setPatternFlag on pattern = .no .badIndex s := dif_neg (by omega)

theorem State.setPatternFlag_named {s : State} {on : Bool} {pattern : BitVec 8} {k : Fin 16}
    (names : pattern.toNat = k.val) : s.setPatternFlag on pattern = .ok { s with flags := s.flags.set k on } := by
  unfold State.setPatternFlag
  rw [dif_pos (names ▸ k.isLt)]
  simp only [names]

/-- Settles O47, by the numbers the two directives name. -/
theorem highlightAndPatternFlagDirectives : Obligations.HighlightAndPatternFlagDirectives := by
  unfold Obligations.HighlightAndPatternFlagDirectives
  refine ⟨fun h ch s takes => ⟨fun above => ?_, fun n names => ?_⟩,
    fun h on pattern s takes => ⟨fun above => ?_, fun k names => ?_⟩⟩
  · exact exec_clearHighlight takes (State.toChannel_above above)
  · exact exec_clearHighlight takes (State.toChannel_chan takes.1.hand names rfl)
  · exact exec_setPatternFlag takes (State.setPatternFlag_above above)
  · exact exec_setPatternFlag takes (State.setPatternFlag_named names)

/-! ## READ-STATUS (R177) -/

/-- A READ-STATUS replies with what it reads, under its one code. -/
theorem exec_readStatus {s : State} {h : DirHeader} {d : Directive} {r : Result} (takes : s.TakesReplying)
    (form : Record.formOk (h.record d) = true) (always : alwaysReplies d = true) (code : directiveCode d = 14)
    {q : Result} (asks : s.takeDirective h d = q.conclude h d) (answer : q = r) :
    exec (h.record d).toInstr s = .next (r.state.replying h 14 r.outcome r.data) := by
  rw [exec_directive_replying takes form always asks, code, answer]

theorem State.readPass_pass (s : State) : s.readPass 4 = ⟨.done, .pass s.passState s.passCount, s⟩ := if_pos rfl

theorem State.readPass_other (s : State) {item : BitVec 4} (other : item ≠ 4) : s.readPass item = .no .badIndex s :=
  if_neg other

theorem State.readChannel_above {s : State} {k : BitVec 8} (above : 3 < k.toNat) :
    s.readChannel k = .no .badChannel s := by
  unfold State.readChannel; rw [headNo?_of_above above]

theorem State.readHead_above {s : State} {k : BitVec 8} (above : 3 < k.toNat) : s.readHead k = .no .badChannel s := by
  unfold State.readHead; rw [headNo?_of_above above]

theorem State.readChannel_named {s : State} {k : BitVec 8} {n : HeadNo} (names : k.toNat = n.val) :
    s.readChannel k = ⟨.done, .channel n s.chans[n].status, s⟩ := by
  unfold State.readChannel; rw [headNo?_of_eq names]

theorem State.readHead_named {s : State} {k : BitVec 8} {n : HeadNo} (names : k.toNat = n.val) :
    s.readHead k = ⟨.done, .head (headStatus s.ports[n] s.trackers[n]), s⟩ := by
  unfold State.readHead; rw [headNo?_of_eq names]

/-- The port's fields as they stand, its entries counted and listed without their snapshots (R48). -/
theorem headStatus_eq (p : HeadPort) (t : Tracker) :
    headStatus p t =
      { state := p.state, credit := p.credit, beam := p.beam, timerRunning := decide (p.timer ≠ .stopped),
        sent := p.trail.countP fun e => e.state = .sent, drawn := p.trail.countP fun e => e.state = .drawn,
        entries := p.trail.map fun e => ⟨e.origin, e.kind, e.visible, e.state, e.pos⟩, tracker := t } := by
  have running : (p.timer != .stopped) = decide (p.timer ≠ .stopped) := by
    cases p.timer <;> rfl
  have sent : sentCount p.trail = p.trail.countP fun e => e.state = .sent :=
    congrArg (List.countP · p.trail) (funext fun e => by unfold TrailEntry.isSent; cases e.state <;> rfl)
  have drawn : drawnCount p.trail = p.trail.countP fun e => e.state = .drawn :=
    congrArg (List.countP · p.trail) (funext fun e => by unfold TrailEntry.isDrawn; cases e.state <;> rfl)
  unfold headStatus
  rw [running, sent, drawn]
  rfl

/-- Settles O48, item by item. -/
theorem readStatusReportsTheState : Obligations.ReadStatusReportsTheState := by
  unfold Obligations.ReadStatusReportsTheState
  refine fun h s takes => ⟨?_, ?_, ?_, ?_, fun item other => ?_, fun k above => ⟨?_, ?_⟩, fun k n names => ⟨?_, ?_⟩⟩
  · exact exec_readStatus (d := .readFaults) (r := s.readFaults) takes rfl rfl rfl rfl rfl
  · exact exec_readStatus (d := .readFaultsClear) (r := s.readFaultsClear) takes rfl rfl rfl rfl rfl
  · exact exec_readStatus (d := .readBanks) (r := s.readBanks) takes rfl rfl rfl rfl rfl
  · exact exec_readStatus (d := .readPass 4) takes rfl rfl rfl rfl s.readPass_pass
  · exact exec_readStatus (d := .readPass item) takes rfl rfl rfl rfl (s.readPass_other other)
  · exact exec_readStatus (d := .readChannel k) takes rfl rfl rfl rfl (State.readChannel_above above)
  · exact exec_readStatus (d := .readHead k) takes rfl rfl rfl rfl (State.readHead_above above)
  · exact exec_readStatus (d := .readChannel k) takes rfl rfl rfl rfl (State.readChannel_named names)
  · rw [← headStatus_eq]
    exact exec_readStatus (d := .readHead k) takes rfl rfl rfl rfl (State.readHead_named names)

end Sys2Proof.Machine
end

section
/-! SUPPORT and PROOFS. The stream input (chapter 1): malformed records, the end of a pass, the records no head takes,
and what a delivery forwards. -/

namespace Sys2Proof.Machine

/-! ## Malformed records (R3, R185) -/

/-- A record of a wrong form is counted and discarded (R3). -/
theorem exec_malformed {s : State} {r : Record} (free : s.InputFree) (form : Record.formOk r = false) :
    exec r.toInstr s = .next (s.raise .unknownRecord) :=
  exec_toInstr_free free (State.takeRecord_malformed form) free.hand

/-- Images that do not fill the words a WRITE-TABLE requires give its record a wrong form (R194). -/
theorem formOk_writeTable_short (h : DirHeader) {bank : BankId} {table : BitVec 4} {first : Word} {count : BitVec 5}
    {images : List Word} {words : Nat} (width : imageWords table = some words)
    (short : images.length ≠ count.toNat * words) :
    Record.formOk (h.record (.writeTable bank table first count images)) = false := by
  rw [imageWords_eq, Option.map_eq_some_iff] at width
  obtain ⟨t, named, rfl⟩ := width
  unfold Record.formOk DirHeader.record
  dsimp only
  rw [named]
  exact beq_eq_false_iff_ne.2 short

theorem State.raise_eq (s : State) (k : FaultKind) :
    s.raise k =
      { s with
        faultCounts := s.faultCounts.set k.num (min 65535 (s.faultCounts[k.num] + 1)),
        faultPending :=
          if s.active.global.faultMask.getLsbD k.num.val = true then s.faultPending.set k.num true
          else s.faultPending } := rfl

/-- Settles O5: each record named has a wrong form, and an unknown directive a right one. -/
theorem malformedRecordIsCountedAndDiscarded : Obligations.MalformedRecordIsCountedAndDiscarded := by
  unfold Obligations.MalformedRecordIsCountedAndDiscarded
  refine ⟨fun s free => ⟨fun a => ?_, fun a l v out => ?_, fun a i cs out => ?_,
    fun h bank table first count images words width short => ?_⟩, fun h code operands s takes => ?_, State.raise_eq⟩
  · exact exec_malformed (r := ⟨a, .malformed⟩) free rfl
  · exact exec_malformed (r := ⟨a, .mark (.name l v)⟩) free (decide_eq_false out)
  · exact exec_malformed (r := ⟨a, .beam (.text i cs)⟩) free (decide_eq_false out)
  · exact exec_malformed free (formOk_writeTable_short h width short)
  · exact exec_directive_concluded (d := .unknown code operands) (r := .no .unknownDirective s) takes rfl rfl rfl

/-! ## The end of a pass without a pending switch (R8) -/

/-- The part once the pass-end notice has reached the four channels and the counter has risen (R8). -/
def State.passEnded (s : State) : State :=
  { s with
    passState := .closed
    passCount := s.passCount + 1
    chans := perHead fun n => (passEndNotice s.passCount (s.view n) (s.desk n)).chan
    queues := perHead fun n => (passEndNotice s.passCount (s.view n) (s.desk n)).queue
    flags := allHeads.foldl
      (fun f n => (passEndNotice s.passCount (s.view n) { s.desk n with flags := f }).flags) s.flags }

theorem State.attemptSwitch_none {s : State} (pass : PassNo) (none : s.pendingSwitch = none) :
    s.attemptSwitch pass = s := by
  unfold State.attemptSwitch; rw [none]

theorem exec_passEnd_noSwitch {s : State} (a : FileAddr) (free : s.InputFree) (opened : s.passState = .opened)
    (none : s.pendingSwitch = none) : exec (.passEnd a) s = .next s.passEnded := by
  rw [exec_passEnd_opened a free opened, State.closePass_eq free.hand]
  exact congrArg Host.Outcome.next (State.attemptSwitch_none (s := s.passEnded) s.passCount none)

theorem State.passEnded_chan (s : State) (n : HeadNo) :
    s.passEnded.chans[n] = (passEndNotice s.passCount (s.view n) (s.desk n)).chan := perHead_get _ n

theorem State.passEnded_queue (s : State) (n : HeadNo) :
    s.passEnded.queues[n] = (passEndNotice s.passCount (s.view n) (s.desk n)).queue := perHead_get _ n

/-- In OFF, IDLE, HELD and WAIT the notice does nothing (R8). -/
theorem passEndNotice_idle (pass : PassNo) (v : View) {d : Desk}
    (idle : d.chan.state = .off ∨ d.chan.state = .idle ∨ d.chan.state = .held ∨ ∃ r q, d.chan.state = .wait r q) :
    passEndNotice pass v d = d := by
  unfold passEndNotice
  rcases idle with state | state | state | ⟨r, q, state⟩ <;> rw [state]

/-- Settles O8: the notices reach the channels one by one, and with no switch pending nothing follows them. -/
theorem passEndNotifiesEachChannelAndCounts : Obligations.PassEndNotifiesEachChannelAndCounts := by
  unfold Obligations.PassEndNotifiesEachChannelAndCounts
  intro s a free opened none
  refine ⟨_, exec_passEnd_noSwitch a free opened none, fun n => ⟨s.passEnded_chan n, s.passEnded_queue n⟩,
    fun n idle => ?_, rfl⟩
  have still (f : Vector Bool 16) := passEndNotice_idle (d := { s.desk n with flags := f }) s.passCount (s.view n) idle
  refine ⟨?_, ?_, fun f => by rw [still]⟩
  · exact (s.passEnded_chan n).trans (congrArg Desk.chan (still s.flags))
  · exact (s.passEnded_queue n).trans (congrArg Desk.queue (still s.flags))

/-! ## Records that no head takes (R11, R12) -/

theorem State.route_uncovered {s : State} {a : FileAddr} (deliver : List HeadNo → State → State)
    (opened : s.passState = .opened) (uncovered : ∀ n, ¬ s.names a n) : s.route a deliver = s.raise .routeMiss := by
  have covering : s.active.covering a = [] :=
    List.eq_nil_iff_forall_not_mem.2 fun n mem => uncovered n ((s.mem_covering a n).1 mem)
  unfold State.route
  rw [opened, covering]

theorem State.route_allDown {s : State} {a : FileAddr} (deliver : List HeadNo → State → State)
    (opened : s.passState = .opened) (covered : ∃ n, s.names a n) (down : ∀ n, ¬ s.reaches a n) :
    s.route a deliver = s := by
  obtain ⟨n, named⟩ := covered
  have covering : s.active.covering a ≠ [] := List.ne_nil_of_mem ((s.mem_covering a n).2 named)
  have destinations : s.destinations a = [] :=
    List.eq_nil_iff_forall_not_mem.2 fun n mem => down n ((s.mem_destinations a n).1 mem)
  unfold State.route
  rw [opened, destinations]
  dsimp only
  split
  · contradiction
  · rfl

/-- Settles O9, by the covering set and the destination set of the record's address. -/
theorem routeMissAndQuietDiscard : Obligations.RouteMissAndQuietDiscard := by
  unfold Obligations.RouteMissAndQuietDiscard
  intro s c a free opened routed
  obtain ⟨r, deliver, rfl, route⟩ := takeRecord_of_routedAddr routed s
  refine ⟨fun uncovered => ?_, fun covered down => ?_⟩
  · exact exec_toInstr_free free (route.trans (State.route_uncovered deliver opened uncovered)) free.hand
  · exact exec_toInstr_free free (route.trans (State.route_allDown deliver opened covered down)) free.hand

/-! ## Deliveries (R13 to R15, R34, R42) -/

theorem deliveriesEnded_iff (w : Vector (List Prepared) 4) : deliveriesEnded w = true ↔ ∀ n : HeadNo, w[n] = [] := by
  unfold deliveriesEnded
  rw [List.all_eq_true]
  constructor
  · intro ended n
    exact List.isEmpty_iff.1 (ended _ (Vector.mem_toList_iff.2 (Vector.getElem_mem n.isLt)))
  · intro ended l mem
    obtain ⟨i, hi, rfl⟩ := Vector.getElem_of_mem (Vector.mem_toList_iff.1 mem)
    exact List.isEmpty_iff.2 (ended ⟨i, hi⟩)

/-- A record in hand is disposed of once nothing of it waits (R13). -/
theorem State.closeHand_deliver {s : State} {r : Record} {w : Vector (List Prepared) 4}
    (hand : s.inHand = some (.deliver r w)) :
    s.closeHand = { s with inHand := if ∀ n : HeadNo, w[n] = [] then none else some (.deliver r w) } := by
  unfold State.closeHand
  rw [hand]
  dsimp only
  by_cases ended : ∀ n : HeadNo, w[n] = []
  · rw [if_pos ((deliveriesEnded_iff w).2 ended), if_pos ended]
  · rw [if_neg fun all => ended ((deliveriesEnded_iff w).1 all), if_neg ended, ← hand]

/-- A delivery forwards to each head what its credit allows, and the rest, if there is one, waits in hand. -/
theorem State.deliver_closeHand (r : Record) (prep : HeadNo → List Prepared) (hs : List HeadNo) (s : State) :
    (s.deliver r prep hs).closeHand =
      { s with
        inHand :=
          if ∀ n : HeadNo, (workOf prep hs n).length ≤ s.ports[n].credit then none
          else some (.deliver r (perHead fun n => (workOf prep hs n).drop s.ports[n].credit))
        ports := perHead fun n =>
          ((workOf prep hs n).take s.ports[n].credit).foldl (HeadPort.forward (s.active.stallLimit n)) s.ports[n]
        headLinks := perHead fun n =>
          s.headLinks[n] ++ ((workOf prep hs n).take s.ports[n].credit).map Prepared.record } := by
  rw [State.deliver_eq, State.closeHand_deliver rfl]
  simp only [perHead_get, List.drop_eq_nil_iff]

/-- What a beam or slot record taken at a free input leaves. -/
theorem exec_delivery {s : State} {r : Record} (prep : HeadNo → List Prepared) (free : s.InputFree)
    (opened : s.passState = .opened) (reached : ∃ n, s.reaches r.addr n)
    (route : s.takeRecord r = s.route r.addr (State.deliver r prep)) :
    exec r.toInstr s = .next (s.deliver r prep (s.destinations r.addr)).closeHand := by
  rw [exec_toInstr, State.offerRecord_free r free, route, State.route_reached _ opened reached]

/-- A beam or slot record offered is taken with what the Stream Editor decides for each head (R147). -/
theorem takeRecord_of_beamOrSlot {c : Instr} {r : Record}
    (kind : (∃ x, beamOf? c = some x ∧ r = ⟨x.1, .beam x.2⟩) ∨ ∃ x, slotOf? c = some x ∧ r = ⟨x.1, .slot x.2⟩)
    (s : State) :
    c = r.toInstr ∧ s.takeRecord r = s.route r.addr (State.deliver r fun n => s.decided n r.body r.addr) := by
  rcases kind with ⟨⟨a, b⟩, beam, rfl⟩ | ⟨⟨a, k⟩, slot, rfl⟩
  · cases c with
    | move _ p => cases beam; exact ⟨rfl, State.takeRecord_beam rfl⟩
    | draw _ p i => cases beam; exact ⟨rfl, State.takeRecord_beam rfl⟩
    | text _ i chars =>
      obtain ⟨form, same⟩ := Option.ite_none_right_eq_some.1 beam
      cases same
      exact ⟨rfl, State.takeRecord_beam form⟩
    | _ => cases beam
  · cases c with
    | crossSlot _ => cases slot; exact ⟨rfl, State.takeRecord_slot s a _⟩
    | readoutSlot _ p => cases slot; exact ⟨rfl, State.takeRecord_slot s a _⟩
    | _ => cases slot

/-- A trail holds a SENT entry. -/
theorem sentCount_eq_zero (t : List TrailEntry) : sentCount t = 0 ↔ ¬ ∃ e ∈ t, e.state = .sent := by
  have isSent (e : TrailEntry) : e.isSent = true ↔ e.state = .sent := by
    unfold TrailEntry.isSent; cases e.state <;> simp
  unfold sentCount
  simp only [List.countP_eq_zero, isSent, not_exists, not_and]

theorem HeadPort.forward_eq (limit : Nat) (h : HeadPort) (p : Prepared) :
    HeadPort.forward limit h p =
      { h with
        credit := h.credit - 1,
        beam := match p.beam with | .move q => q | .draw q _ => q | .text _ _ => h.beam,
        trail := h.trail ++
          [{ origin := p.origin,
             kind := match p.beam with | .move _ => .move | .draw _ _ => .draw | .text _ _ => .text,
             visible :=
               match p.beam with | .move _ => false | .draw _ i => decide (i ≠ 0) | .text i _ => decide (i ≠ 0),
             snap := p.snap,
             pos := match p.beam with | .move q => q | .draw q _ => q | .text _ _ => h.beam,
             state := .sent }],
        timer :=
          if ∃ e ∈ h.trail, e.state = .sent then h.timer
          else if limit = 0 then .stopped else .running limit } := by
  have timer : (if sentCount h.trail = 0 then startTimer limit else h.timer) =
      if ∃ e ∈ h.trail, e.state = .sent then h.timer else if limit = 0 then .stopped else .running limit := by
    by_cases sent : ∃ e ∈ h.trail, e.state = .sent
    · rw [if_pos sent, if_neg fun zero => (sentCount_eq_zero _).1 zero sent]
    · rw [if_neg sent, if_pos ((sentCount_eq_zero _).2 sent)]; rfl
  have lit (i : Intensity) : (i != 0) = decide (i ≠ 0) := by
    rw [Bool.eq_iff_iff, bne_iff_ne, decide_eq_true_iff]
  unfold HeadPort.forward Prepared.entry
  rw [timer]
  cases p.beam with
  | move q => rfl
  | draw q i =>
    rw [show beamVisible (.draw q i) = decide (i ≠ 0) from lit i]; rfl
  | text i cs =>
    rw [show beamVisible (.text i cs) = decide (i ≠ 0) from lit i]; rfl

/-- Settles O10: the delivery is `deliver_eq`, and the hand closes when nothing is left beyond the credit. -/
theorem deliveryForwardsWhatCreditAllows : Obligations.DeliveryForwardsWhatCreditAllows := by
  unfold Obligations.DeliveryForwardsWhatCreditAllows
  refine ⟨fun s c r free opened kind reached => ?_, HeadPort.forward_eq⟩
  obtain ⟨rfl, route⟩ := takeRecord_of_beamOrSlot kind s
  refine ⟨_, workOf (fun n => s.decided n r.body r.addr) (s.destinations r.addr),
    exec_delivery _ free opened reached route, fun n reach => ?_, fun n missed => ?_, fun n => ?_, ?_⟩
  · exact if_pos ((s.mem_destinations r.addr n).2 reach)
  · exact if_neg fun mem => missed ((s.mem_destinations r.addr n).1 mem)
  · rw [State.deliver_closeHand]
    exact ⟨perHead_get _ n, perHead_get _ n⟩
  · rw [State.deliver_closeHand]

end Sys2Proof.Machine
end

section
/-! SUPPORT and PROOFS. The selection of the return link (section 11.5): what it sends, what a freed place takes, and
how a freed reply space ends the hold of a directive (section 1.5). -/

namespace Sys2Proof.Machine

/-! ## The slot found (R180, R189) -/

theorem ringSource_eq_chan : ∀ (c : BitVec 3) (n : HeadNo), ringSource c = some (.chan n) ↔ c.toNat = n.val := by
  decide

theorem ringSource_eq_reply : ∀ c : BitVec 3, ringSource c = some .reply ↔ c = 4 := by decide

theorem ringSource_eq_status : ∀ c : BitVec 3, ringSource c = some .status ↔ c = 5 := by decide

theorem State.anyPending_iff (s : State) : s.anyPending = true ↔ ∃ k : Fin 12, s.faultPending[k] = true := by
  unfold State.anyPending
  rw [List.any_eq_true]
  constructor
  · rintro ⟨_, mem, set⟩
    obtain ⟨k, hk, rfl⟩ := Vector.getElem_of_mem (Vector.mem_toList_iff.1 mem)
    exact ⟨⟨k, hk⟩, set⟩
  · rintro ⟨k, set⟩
    exact ⟨_, Vector.mem_toList_iff.2 (Vector.getElem_mem k.isLt), set⟩

/-- A source is ready when it has something to report. -/
theorem State.ready_iff (s : State) (src : Source) :
    s.ready src = true ↔
      match src with
      | .chan n => s.queues[n] ≠ []
      | .reply => s.replies ≠ []
      | .status => ∃ k : Fin 12, s.faultPending[k] = true := by
  cases src with
  | chan n => unfold State.ready; simp
  | reply => unfold State.ready; simp
  | status => exact s.anyPending_iff

theorem State.slotReady_iff (s : State) (i : Fin 8) : (s.slotSource i).any s.ready = true ↔ s.SlotReady i := by
  unfold State.slotSource State.SlotReady
  simp only [Option.any_eq_true, ← ringSource_eq_chan, ← ringSource_eq_reply, ← ringSource_eq_status]
  constructor
  · rintro ⟨src, names, ready⟩
    have has := (s.ready_iff src).1 ready
    cases src with
    | chan n => exact .inl ⟨n, names, has⟩
    | reply => exact .inr (.inl ⟨names, has⟩)
    | status => exact .inr (.inr ⟨names, has⟩)
  · rintro (⟨n, names, has⟩ | ⟨names, has⟩ | ⟨names, has⟩)
    · exact ⟨_, names, (s.ready_iff (.chan n)).2 has⟩
    · exact ⟨_, names, (s.ready_iff .reply).2 has⟩
    · exact ⟨_, names, (s.ready_iff .status).2 has⟩

theorem State.findSlot_eq_some (s : State) (i : Fin 8) : s.findSlot = some i ↔ s.Finds i := by
  unfold State.findSlot State.Finds
  simp only [searchOrder_find?_eq_some, s.slotReady_iff]

theorem State.Selects.select {s : State} {i : Fin 8} {src : Source} (selects : s.Selects i)
    (names : ringSource s.active.ring[i] = some src) : s.select = s.selectSource i src := by
  obtain ⟨free, credit, finds⟩ := selects
  exact State.select_eq free credit ((s.findSlot_eq_some i).2 finds) names

/-! ## A selection settled at an input that stands (section 1.5) -/

theorem exec_selection {s t : State} {i : Fin 8} {src : Source} (selects : s.Selects i)
    (names : ringSource s.active.ring[i] = some src) (sent : s.selectSource i src = t) (ok : t.InputOk) :
    exec .selection s = .next t := by
  show Host.Outcome.next s.select.settle = .next t
  rw [selects.select names, sent, State.settle_ok ok]

/-- A channel's oldest report sent, and the place it leaves offered to the channel (R182). -/
theorem exec_selection_chan {s : State} {n : HeadNo} {i : Fin 8} {r : ChannelReport} {rest q : List ChannelReport}
    {c : PenChannel} (ok : s.InputOk) (selects : s.Selects i) (names : s.active.ring[i].toNat = n.val)
    (queue : s.queues[n] = r :: rest)
    (freed : ∀ v f, placeFreed v ⟨s.chans[n], rest, f⟩ = ⟨c, q, f⟩) :
    exec .selection s = .next (((s.sends i (.chan n r)).withQueue n q).withChan n c) := by
  refine exec_selection selects ((ringSource_eq_chan _ n).2 names) ?_ (ok.congr rfl rfl rfl)
  have place := State.selectSource_chan i queue
  dsimp only at place
  rw [place]
  have desk : State.desk ({ s with queues := s.queues.set n rest }.send i (.chan n r)) n =
      ⟨s.chans[n], rest, s.flags⟩ :=
    congrArg (Desk.mk s.chans[n] · s.flags) (vec_set_self s.queues n rest)
  rw [desk, freed]
  unfold State.withChan State.withQueue State.sends State.send
  dsimp only
  rw [Vector.set_set]

/-- A finished reply sent while no directive waits for its space. -/
theorem exec_selection_reply {s : State} {i : Fin 8} {r : Reply} {rest : List Reply} (selects : s.Selects i)
    (free : s.NoDirective) (names : s.active.ring[i] = 4) (replies : s.replies = r :: rest) :
    exec .selection s = .next ({ s with replies := rest }.sends i (.reply r)) := by
  refine exec_selection selects ((ringSource_eq_reply _).2 names) ?_ ?_
  · unfold State.selectSource
    dsimp only
    rw [replies]
    rfl
  · obtain ⟨open_ | held, noDirective⟩ := free
    · exact .inl ⟨open_.hand, open_.offered⟩
    · right
      unfold State.InputHeld at held ⊢
      show match s.inHand with
        | none => False
        | some (.deliver _ w) => deliveriesEnded w = false
        | some (.directive _ _) => State.replyRoom ({ s with replies := rest }.sends i (.reply r)) = false
      cases hand : s.inHand with
      | none => rw [hand] at held; exact held
      | some x => cases x with
        | deliver r w => rw [hand] at held; exact held
        | directive h d => exact absurd hand (noDirective h d)

theorem exec_selection_status {s : State} {i : Fin 8} (ok : s.InputOk) (selects : s.Selects i)
    (names : s.active.ring[i] = 5) :
    exec .selection s =
      .next ({ s with faultPending := .replicate 12 false }.sends i (.status s.faultPending s.faultCounts)) :=
  exec_selection selects ((ringSource_eq_status _).2 names) rfl (ok.congr rfl rfl rfl)

/-- No selection, where the link, the credit or every source forbids one. -/
theorem exec_selection_idle {s : State} (ok : s.InputOk) (none : ∀ i, ¬ s.Selects i) :
    exec .selection s = .next s := by
  have idle : s.select = s := State.select_none fun ⟨free, credit, i, found⟩ =>
    none i ⟨free, credit, (s.findSlot_eq_some i).1 found⟩
  show Host.Outcome.next s.select.settle = .next s
  rw [idle, State.settle_ok ok]

/-- A channel that keeps nothing back takes no place (R182). -/
theorem placeFreed_nothing (v : View) {d : Desk}
    (rests : d.chan.state = .off ∨ d.chan.state = .idle ∨ d.chan.state = .gather ∨ d.chan.state = .held) :
    placeFreed v d = d := by
  unfold placeFreed
  rcases rests with state | state | state | state <;> rw [state]

theorem State.withChan_self (s : State) (n : HeadNo) : s.withChan n s.chans[n] = s := by
  unfold State.withChan
  have same : s.chans.set n s.chans[n] = s.chans := Vector.set_getElem_self n.isLt
  rw [same]

/-- Settles O50, by the source that the slot found names. -/
theorem selectionServesTheRing : Obligations.SelectionServesTheRing := by
  unfold Obligations.SelectionServesTheRing
  refine ⟨fun _ => rfl, fun s ok => ⟨exec_selection_idle ok, fun i selects => ⟨fun n r rest names queue rests => ?_,
    fun r rest free names replies => ?_, exec_selection_status ok selects⟩⟩⟩
  · rw [exec_selection_chan ok selects names queue fun v f => placeFreed_nothing v (d := ⟨_, rest, f⟩) rests]
    exact congrArg Host.Outcome.next (((s.sends i (.chan n r)).withQueue n rest).withChan_self n)
  · exact exec_selection_reply selects free names replies

/-! ## A freed place (R82, R140, R182) -/

theorem Successor.reconcile_up (succ : Successor) : succ.reconcile .up = .idle := by
  cases succ <;> rfl

theorem placeFreed_wait (v : View) {c : PenChannel} {held : ChannelReport} {succ : Successor}
    (wait : c.state = .wait held succ) (rest : List ChannelReport) (f : Vector Bool 16) :
    placeFreed v ⟨c, rest, f⟩ = ⟨{ c with state := (succ.reconcile c.tip).entered }, rest ++ [held], f⟩ := by
  unfold placeFreed
  dsimp only
  rw [wait, ← Successor.enter_eq]
  rfl

theorem placeFreed_track (v : View) {c : PenChannel} {t : Tracking} (track : c.state = .track t)
    (rest : List ChannelReport) (f : Vector Bool 16) :
    placeFreed v ⟨c, rest, f⟩ =
      match t.update with
      | some x => ⟨{ c with state := .track { t with update := none } }, rest ++ [.track x], f⟩
      | none => ⟨c, rest, f⟩ := by
  unfold placeFreed
  dsimp only
  rw [track]
  dsimp only
  cases t.update <;> rfl

theorem placeFreed_popup_track (v : View) {c : PenChannel} {p : Popup} {t : Tracking} (popup : c.state = .popup p)
    (saved : p.slot.state = .track t) (rest : List ChannelReport) (f : Vector Bool 16) :
    placeFreed v ⟨c, rest, f⟩ =
      match t.update with
      | some x =>
        ⟨{ c with state := .popup { p with slot := { p.slot with state := .track { t with update := none } } } },
          rest ++ [.track x], f⟩
      | none => ⟨c, rest, f⟩ := by
  unfold placeFreed
  dsimp only
  rw [popup]
  dsimp only
  rw [saved]
  dsimp only
  cases t.update <;> rfl

theorem placeFreed_popup_other (v : View) {c : PenChannel} {p : Popup} (popup : c.state = .popup p)
    (other : ∀ t, p.slot.state ≠ .track t) (rest : List ChannelReport) (f : Vector Bool 16) :
    placeFreed v ⟨c, rest, f⟩ = ⟨c, rest, f⟩ := by
  unfold placeFreed
  dsimp only
  rw [popup]
  dsimp only
  cases saved : p.slot.state with
  | track t => exact absurd saved (other t)
  | _ => rfl

/-- Settles O32, by what the channel keeps back: a held report, a pending update, or nothing. -/
theorem freedPlaceTakesWhatTheChannelKept : Obligations.FreedPlaceTakesWhatTheChannelKept := by
  unfold Obligations.FreedPlaceTakesWhatTheChannelKept
  refine ⟨fun s n i r held rest succ ok selects names queue wait st toHeld toTrack toIdle => ?_,
    fun s n i r rest t ok selects names queue track => ⟨fun x update => ?_, fun update => ?_⟩,
    fun s n i r rest p ok selects names queue popup => ⟨fun t x saved update => ?_, fun nothing => ?_⟩⟩
  · have entered : st = (succ.reconcile s.chans[n].tip).entered := by
      cases tip : s.chans[n].tip with
      | up => rw [Successor.reconcile_up]; exact toIdle (.inr tip)
      | down => cases succ with
        | idle => exact toIdle (.inl rfl)
        | held => exact toHeld rfl tip
        | track pos view => exact toTrack pos view rfl tip
    rw [entered]
    exact exec_selection_chan ok selects names queue fun v f => placeFreed_wait v wait rest f
  · refine exec_selection_chan ok selects names queue fun v f => ?_
    rw [placeFreed_track v track, update]
  · have still : ∀ v f, placeFreed v ⟨s.chans[n], rest, f⟩ = ⟨s.chans[n], rest, f⟩ := fun v f => by
      rw [placeFreed_track v track, update]
    rw [exec_selection_chan ok selects names queue still]
    exact congrArg Host.Outcome.next (((s.sends i (.chan n r)).withQueue n rest).withChan_self n)
  · refine exec_selection_chan ok selects names queue fun v f => ?_
    rw [placeFreed_popup_track v popup saved, update]
  · have still : ∀ v f, placeFreed v ⟨s.chans[n], rest, f⟩ = ⟨s.chans[n], rest, f⟩ := fun v f => by
      by_cases track : ∃ t, p.slot.state = .track t
      · obtain ⟨t, saved⟩ := track
        rw [placeFreed_popup_track v popup saved, nothing t saved]
      · exact placeFreed_popup_other v popup (fun t saved => track ⟨t, saved⟩) rest f
    rw [exec_selection_chan ok selects names queue still]
    exact congrArg Host.Outcome.next (((s.sends i (.chan n r)).withQueue n rest).withChan_self n)

/-! ## Records offered in turn (sections 1.2 and 1.5) -/

/-- While the input is held, the records offered wait in their turn. -/
theorem execAll_held (rs : List Record) {s : State} (held : s.InputHeld) :
    execAll (rs.map Record.toInstr) s = .next { s with offered := s.offered ++ rs } := by
  induction rs generalizing s with
  | nil => rw [List.append_nil]; rfl
  | cons r rs ih =>
    have waits : exec r.toInstr s = .next { s with offered := s.offered ++ [r] } := by
      rw [exec_toInstr, State.offerRecord_held r held]
    have still : State.InputHeld { s with offered := s.offered ++ [r] } := held
    rw [List.map_cons, execAll_cons waits, ih still]
    simp

/-- Records offered one after another are taken as the waiting records are. -/
theorem execAll_offered (rs : List Record) {s : State} (empty : s.offered = [])
    (hand : s.inHand = none ∨ s.InputHeld) :
    execAll (rs.map Record.toInstr) s = .next (s.takeOffered rs) := by
  induction rs generalizing s with
  | nil => rfl
  | cons r rs ih =>
    cases inHand : s.inHand with
    | none =>
      have taken : exec r.toInstr s = .next (s.takeRecord r).closeHand := by
        rw [exec_toInstr, State.offerRecord_free r ⟨inHand, empty⟩]
      have closed : (s.takeRecord r).closeHand.offered = [] :=
        (State.closeHand_offered _).trans ((s.takeRecord_offered r).trans empty)
      rw [List.map_cons, execAll_cons taken, ih closed (State.closeHand_none_or_held _)]
      unfold State.takeOffered
      rw [inHand]
      cases rs <;> rfl
    | some x =>
      have held : s.InputHeld := hand.resolve_left fun none => nomatch inHand.symm.trans none
      rw [execAll_held (r :: rs) held, empty]
      unfold State.takeOffered
      rw [inHand]
      rfl

/-! ## A directive that waits for a reply space (R16) -/

theorem willReply_of {want : Bool} {d : Directive} (asked : want = true ∨ RepliesUnasked d) :
    willReply want d = true := by
  unfold willReply
  rcases asked with want | unasked
  · rw [want, Bool.true_or]
  · have always : alwaysReplies d = true := by
      unfold RepliesUnasked at unasked
      split at unasked
      any_goals rfl
      exact unasked.elim
    rw [always, Bool.or_true]

/-- A reply space freed hands the waiting directive over, and the records that waited are taken after it. -/
theorem State.settle_waiting {s : State} {h : DirHeader} {d : Directive} (waiting : List Record) (free : s.InputFree)
    (room : s.replyRoom = true) :
    State.settle { s with inHand := some (.directive h d), offered := waiting } =
      (s.takeDirective h d).takeOffered waiting := by
  have same : { s with inHand := none, offered := waiting } = { s with offered := waiting } := by rw [← free.hand]
  have taken : State.closeHand { s with inHand := some (.directive h d), offered := waiting } =
      { s.takeDirective h d with offered := waiting } := by
    unfold State.closeHand
    refine (if_pos room).trans ?_
    rw [← State.takeDirective_withOffered, ← same]
  have empty : (s.takeDirective h d).offered = [] := (s.takeDirective_offered h d).trans free.offered
  have emptied : { s.takeDirective h d with offered := [] } = s.takeDirective h d := by rw [← empty]
  unfold State.settle
  rw [taken]
  exact congrArg (State.takeOffered · waiting) emptied

/-- Settles O11: records offered to a held input wait; a directive waits for a reply space, and a selection of REPLY
that frees one leaves what the same records offered in turn would leave. -/
theorem heldInputTakesNoRecord : Obligations.HeldInputTakesNoRecord := by
  unfold Obligations.HeldInputTakesNoRecord
  refine ⟨fun s r held => by rw [exec_toInstr, State.offerRecord_held r held],
    fun s h d i r rest waiting free form asked replies full => ⟨?_, fun selects names => ?_⟩⟩
  · exact exec_directive_waits free form (willReply_of asked) fun (space : _ < 8) => by omega
  · let u : State := { s with replies := rest }.sends i (.reply r)
    have uFree : u.InputFree := ⟨free.hand, free.offered⟩
    have room : u.replyRoom = true := by
      refine u.replyRoom_iff.2 ?_
      rw [replies, List.length_cons] at full
      show rest.length + (if s.reserved then 1 else 0) < 8
      omega
    let held : State := { s with inHand := some (.directive h d), offered := waiting }
    have chosen : held.select = { u with inHand := some (.directive h d), offered := waiting } := by
      have selectsHeld : held.Selects i := selects
      rw [selectsHeld.select ((ringSource_eq_reply _).2 names)]
      unfold State.selectSource
      dsimp only
      rw [show held.replies = r :: rest from replies]
      rfl
    have first : exec (h.record d).toInstr u = .next (u.takeDirective h d) := by
      rw [exec_toInstr, State.offerRecord_directive h d uFree form fun _ => room]
    have after : (u.takeDirective h d).offered = [] := (u.takeDirective_offered h d).trans uFree.offered
    rw [List.map_cons, execAll_cons first,
      execAll_offered waiting after (.inl (State.takeDirective_inHand_none h d uFree.hand))]
    show Host.Outcome.next held.select.settle = _
    rw [chosen, State.settle_waiting waiting uFree room]

end Sys2Proof.Machine
end

section
/-! SUPPORT and PROOFS. Completions and stalls at a Head Port (sections 3.3 and 3.4). -/

namespace Sys2Proof.Machine

/-! ## The hand after a head event -/

/-- With no record waiting behind it, settling is closing the hand. -/
theorem State.settle_nothing {s : State} (empty : s.offered = []) : s.settle = s.closeHand := by
  unfold State.settle
  rw [empty]
  show { s.closeHand with offered := [] } = s.closeHand
  have kept : s.closeHand.offered = [] := (State.closeHand_offered s).trans empty
  rw [← kept]

/-- Forwarding does nothing where no record waits in hand for the head. -/
theorem State.pumpHead_nothing {s : State} (n : HeadNo) (nothing : ∀ r w, s.inHand = some (.deliver r w) → w[n] = []) :
    s.pumpHead n = s := by
  cases hand : s.inHand with
  | none => unfold State.pumpHead; rw [hand]
  | some x => cases x with
    | directive h d => unfold State.pumpHead; rw [hand]
    | deliver r w =>
      have done := nothing r w hand
      have keeps : w.set n [] = w := by
        rw [← done]; exact Vector.set_getElem_self n.isLt
      have ports : s.ports.set n s.ports[n] = s.ports := Vector.set_getElem_self n.isLt
      have links : s.headLinks.set n s.headLinks[n] = s.headLinks := Vector.set_getElem_self n.isLt
      rw [State.pumpHead_deliver n hand, done, List.drop_nil, List.take_nil, List.map_nil, List.append_nil,
        List.foldl_nil, keeps, ports, links, ← hand]

/-! ## Completions (R38, R41, R42) -/

/-- The state in which the oldest SENT entry of head `n` has been retired. -/
def State.retired (s : State) (n : HeadNo) : State :=
  s.setPort n (s.ports[n].complete (s.active.lag n) (s.active.stallLimit n))

theorem exec_completion_sent {s : State} {n : HeadNo} (up : s.ports[n].state = .up)
    (sent : ∃ e ∈ s.ports[n].trail, e.state = .sent) :
    exec (.completion n) s = .next ((s.retired n).pumpHead n).settle := by
  show Host.Outcome.next (s.completion n) = _
  unfold State.completion
  rw [up]
  exact congrArg Host.Outcome.next (if_neg fun zero => (sentCount_eq_zero _).1 zero sent)

/-- The port after a completion that retires `e`: what `drawnAfter` leaves, one credit more, and the timer restarted
while SENT entries are left. -/
theorem HeadPort.complete_eq {lag limit : Nat} {h : HeadPort} {drawn sent : List TrailEntry} {e : TrailEntry}
    (trail : h.trail = drawn ++ e :: sent) (hd : ∀ x ∈ drawn, x.state = .drawn) (hs : ∀ x ∈ e :: sent, x.state = .sent)
    (within : drawn.length ≤ lag) :
    h.complete lag limit =
      { h with
        credit := h.credit + 1, trail := drawnAfter lag drawn e ++ sent,
        timer := if sent = [] then .stopped else startTimer limit } := by
  have hs' : ∀ x ∈ sent, x.state = .sent := fun x hx => hs x (List.mem_cons_of_mem e hx)
  have drawnOnly : ∀ x ∈ drawnAfter lag drawn e, x.state = .drawn := fun x hx => by
    rcases mem_drawnAfter hx with old | ⟨-, rfl⟩
    · exact hd x old
    · rfl
  have count : sentCount (drawnAfter lag drawn e ++ sent) = 0 ↔ sent = [] := by
    rw [sentCount_append, sentCount_of_drawn drawnOnly, sentCount_of_sent hs', Nat.zero_add, List.length_eq_zero_iff]
  unfold HeadPort.complete
  rw [trail, completed_trail hd hs within]
  simp only [count]

theorem exec_completion_nothing {s : State} {n : HeadNo} (ok : s.InputOk)
    (nothing : ∀ r w, s.inHand = some (.deliver r w) → w[n] = []) (up : s.ports[n].state = .up)
    (sent : ∃ e ∈ s.ports[n].trail, e.state = .sent) : exec (.completion n) s = .next (s.retired n) := by
  have still : (s.retired n).InputOk := ok.congr rfl rfl rfl
  rw [exec_completion_sent up sent, State.pumpHead_nothing (s := s.retired n) n nothing, State.settle_ok still]

/-- The record in hand with the records `ps` waiting for head `n` alone. -/
def waitingFor (n : HeadNo) (r : Record) (ps : List Prepared) : InHand :=
  .deliver r (Vector.set (.replicate 4 []) n ps)

theorem State.closeHand_waitingFor {s : State} {n : HeadNo} {r : Record} {ps : List Prepared}
    (hand : s.inHand = some (waitingFor n r ps)) :
    s.closeHand = { s with inHand := if ps = [] then none else some (waitingFor n r ps) } := by
  have nothing (m : HeadNo) : (Vector.replicate 4 ([] : List Prepared))[m] = [] := Vector.getElem_replicate m.isLt
  have ended : (∀ m : HeadNo, (Vector.set (.replicate 4 []) n ps)[m] = []) ↔ ps = [] := by
    simp only [vec_set_get, nothing]
    exact ⟨fun all => (if_pos rfl).symm.trans (all n), fun none m => by rw [none, ite_self]⟩
  rw [State.closeHand_deliver hand]
  simp only [ended]
  rfl

/-- With one credit, one waiting record is forwarded. -/
theorem State.pumpHead_waitingFor {s : State} {n : HeadNo} {r : Record} {p : Prepared} {ps : List Prepared}
    (hand : s.inHand = some (waitingFor n r (p :: ps))) (credit : s.ports[n].credit = 1) :
    s.pumpHead n =
      { s with
        inHand := some (waitingFor n r ps)
        ports := s.ports.set n (s.ports[n].forward (s.active.stallLimit n) p)
        headLinks := s.headLinks.set n (s.headLinks[n] ++ [p.record]) } := by
  have first : (Vector.set (.replicate 4 []) n (p :: ps))[n] = p :: ps := vec_set_self _ _ _
  rw [State.pumpHead_deliver n hand, first, credit]
  dsimp only [List.drop, List.take, List.map, List.foldl]
  rw [Vector.set_set]
  rfl

theorem State.pumpHead_settle_waitingFor {s : State} {n : HeadNo} {r : Record} {p : Prepared} {ps : List Prepared}
    (empty : s.offered = []) (hand : s.inHand = some (waitingFor n r (p :: ps))) (credit : s.ports[n].credit = 1) :
    (s.pumpHead n).settle =
      { s with
        inHand := if ps = [] then none else some (waitingFor n r ps)
        ports := s.ports.set n (s.ports[n].forward (s.active.stallLimit n) p)
        headLinks := s.headLinks.set n (s.headLinks[n] ++ [p.record]) } := by
  rw [State.pumpHead_waitingFor hand credit]
  refine (State.settle_nothing ?_).trans (State.closeHand_waitingFor rfl)
  exact empty

/-- Settles O19: the retired entry, then what the credit gained forwards of the record in hand. -/
theorem completionRetiresTheOldestSentEntry : Obligations.CompletionRetiresTheOldestSentEntry := by
  unfold Obligations.CompletionRetiresTheOldestSentEntry
  refine ⟨fun s n drawn sent e ok nothing up trail hd hs within => ?_,
    fun s n r p ps t empty free up spent sent run => ?_⟩
  · have oldest : ∃ x ∈ s.ports[n].trail, x.state = .sent :=
      ⟨e, by rw [trail]; exact List.mem_append_right _ List.mem_cons_self, hs e List.mem_cons_self⟩
    have limit : startTimer (s.active.stallLimit n) =
        if s.active.global.stall[n] = 0 then .stopped else .running s.active.global.stall[n].toNat := by
      have zero : s.active.stallLimit n = 0 ↔ s.active.global.stall[n] = 0 := by rw [← BitVec.toNat_inj]; rfl
      unfold startTimer
      simp only [zero]
      rfl
    rw [exec_completion_nothing ok nothing up oldest]
    unfold State.retired
    rw [HeadPort.complete_eq (lag := s.active.lag n) trail hd hs within, limit]
    rfl
  · have alone : exec (.completion n) s = .next (s.retired n) :=
      exec_completion_nothing (.inl ⟨free, empty⟩) (fun _ _ hand => nomatch free.symm.trans hand) up sent
    obtain rfl : s.retired n = t := Host.Outcome.next.inj (alone.symm.trans run)
    let held : State := { s with inHand := some (waitingFor n r (p :: ps)) }
    have port : (s.retired n).ports[n] = s.ports[n].complete (s.active.lag n) (s.active.stallLimit n) :=
      vec_set_self _ _ _
    have credit : (held.retired n).ports[n].credit = 1 :=
      (congrArg HeadPort.credit port).trans (congrArg (· + 1) spent)
    show exec (.completion n) held = _
    rw [exec_completion_sent (s := held) up sent,
      State.pumpHead_settle_waitingFor (s := held.retired n) empty rfl credit]
    rfl

/-! ## Stalls (R17, R43, R84) -/

/-- The head-down notice as the statement has it. -/
theorem headDownNotice_eq (v : View) (c : PenChannel) (q : List ChannelReport) (f : Vector Bool 16) :
    headDownNotice v ⟨c, q, f⟩ = ⟨(afterHeadDown c q).1, (afterHeadDown c q).2, f⟩ := by
  unfold headDownNotice afterHeadDown abortClear Desk.offer Desk.room Config.queuePlaces
  dsimp only
  cases c.state with
  | off | idle | held | wait => rfl
  | gather | track | popup =>
    dsimp only
    by_cases room : q.length < 4
    · rw [if_pos room, if_pos (decide_eq_true room)]; rfl
    · rw [if_neg room, if_neg fun has => room (of_decide_eq_true has)]; rfl

/-- A head whose deliveries have ended has none of a pop-up region (R17, R113). -/
theorem InHand.endPopup_endHead (n : HeadNo) (x : InHand) : (x.endHead n).endPopup n = x.endHead n := by
  cases x with
  | directive h d => rfl
  | deliver r w =>
    unfold InHand.endHead InHand.endPopup
    dsimp only
    have none : (w.set n [])[n] = [] := vec_set_self _ _ _
    rw [none, List.filter_nil, Vector.set_set]

/-- The part once head `n` has gone DOWN, before the input is settled. -/
def State.wentDown (s : State) (n : HeadNo) : State :=
  { s.raise .headDown with
    ports := s.ports.set n { s.ports[n] with state := .down, credit := 8, trail := [], timer := .stopped },
    chans := s.chans.set n (afterHeadDown s.chans[n] s.queues[n]).1,
    queues := s.queues.set n (afterHeadDown s.chans[n] s.queues[n]).2,
    inHand := s.inHand.map (InHand.endHead n) }

theorem State.stallExpiry_running {s : State} {n : HeadNo} {ms : Nat} (up : s.ports[n].state = .up)
    (running : s.ports[n].timer = .running ms) : s.stallExpiry n = (s.wentDown n).settle := by
  have hand (left : Bool) : (if left = true then (s.inHand.map (InHand.endHead n)).map (InHand.endPopup n)
      else s.inHand.map (InHand.endHead n)) = s.inHand.map (InHand.endHead n) := by
    have ended : (s.inHand.map (InHand.endHead n)).map (InHand.endPopup n) = s.inHand.map (InHand.endHead n) := by
      cases s.inHand with
      | none => rfl
      | some x => exact congrArg some (x.endPopup_endHead n)
    rw [ended, ite_self]
  unfold State.stallExpiry
  rw [up, running]
  dsimp only
  unfold State.onDesk State.desk
  rw [headDownNotice_eq]
  unfold State.putDesk
  exact congrArg State.settle (congrArg (fun x => { s.wentDown n with inHand := x }) (hand _))

/-- Settles O21, by what is in hand: nothing, a delivery without its part for the head, or a directive. -/
theorem stallExpiryTakesTheHeadDown : Obligations.StallExpiryTakesTheHeadDown := by
  unfold Obligations.StallExpiryTakesTheHeadDown
  intro s n ms up running hand
  show Host.Outcome.next (s.stallExpiry n) = _
  rw [State.stallExpiry_running up running]
  rcases hand with ⟨empty, hand⟩ | ⟨⟨h, d, hand⟩, full⟩
  · rw [State.settle_nothing (s := s.wentDown n) empty]
    rcases hand with free | ⟨r, w, hand⟩
    · have nothing : (s.wentDown n).inHand = none := congrArg (Option.map (InHand.endHead n)) free
      rw [State.closeHand_of_none nothing]
      unfold State.wentDown
      rw [free]
      rfl
    · have left : (s.wentDown n).inHand = some (.deliver r (w.set n [])) :=
        congrArg (Option.map (InHand.endHead n)) hand
      have ended : (∀ m : HeadNo, (w.set n [])[m] = []) ↔ ∀ m : HeadNo, m ≠ n → w[m] = [] := by
        simp only [vec_set_get]
        refine forall_congr' fun m => ?_
        split_ifs with same
        · exact iff_of_true rfl fun other => absurd same.symm other
        · exact ⟨fun none _ => none, fun none => none (Ne.symm same)⟩
      rw [State.closeHand_deliver left, hand]
      simp only [ended]
      rfl
  · have still : (s.wentDown n).inHand = some (.directive h d) := congrArg (Option.map (InHand.endHead n)) hand
    have held : (s.wentDown n).InputHeld := by
      unfold State.InputHeld
      rw [still]
      exact Bool.eq_false_iff.2 fun room => full (s.replyRoom_iff.1 room)
    rw [State.settle_held held]
    unfold State.wentDown
    rw [hand]
    rfl

end Sys2Proof.Machine
end

section
/-! SUPPORT and PROOFS. Strikes (chapter 4 and section 5.3): the struck set, the hit list, the candidate table, and
what a strike does in each channel state. -/

namespace Sys2Proof.Machine

/-! ## The struck set (R54) -/

theorem struckSet_ordered {drawn sent : List TrailEntry} (hd : ∀ e ∈ drawn, e.state = .drawn)
    (hs : ∀ e ∈ sent, e.state = .sent) :
    struckSet (drawn ++ sent) = drawn.map (fun e => (e, 1)) ++ (sent.take 1).map (fun e => (e, 2)) := by
  have drawns : (drawn ++ sent).filter TrailEntry.isDrawn = drawn := by
    rw [List.filter_append, List.filter_eq_self.2 fun e he => by simp [TrailEntry.isDrawn, hd e he],
      List.filter_eq_nil_iff.2 fun e he => by simp [TrailEntry.isDrawn, hs e he], List.append_nil]
  have inDrawing : (drawn ++ sent).find? TrailEntry.isSent = sent.head? := by
    rw [List.find?_append, List.find?_eq_none.2 fun e he => by simp [TrailEntry.isSent, hd e he], Option.none_or]
    cases sent with
    | nil => rfl
    | cons e rest => exact List.find?_cons_of_pos (by simp [TrailEntry.isSent, hs e List.mem_cons_self])
  unfold struckSet
  rw [drawns, inDrawing]
  cases sent <;> rfl

/-! ## A strike in each channel state (R53, R59 to R62) -/

theorem Desk.setState_self (d : Desk) : d.setState d.chan.state = d := rfl

section
variable {v : View} {d : Desk}

theorem strikeOffered_down (down : v.port.state = .down) : strikeOffered v d = d := by
  unfold strikeOffered; rw [down]

theorem strikeOffered_off (off : d.chan.state = .off ∨ ∃ r q, d.chan.state = .wait r q) : strikeOffered v d = d := by
  unfold strikeOffered
  rcases off with state | ⟨r, q, state⟩ <;> rw [state] <;> cases v.port.state <;> rfl

theorem strikeOffered_rest (up : v.port.state = .up) (rest : d.chan.state = .idle ∨ d.chan.state = .held) :
    strikeOffered v d = { d with chan := d.chan.moveStrike (struckSet v.port.trail) } := by
  unfold strikeOffered
  rcases rest with state | state <;> rw [up, state]

theorem strikeOffered_gather (up : v.port.state = .up) (gather : d.chan.state = .gather) :
    strikeOffered v d =
      { d with
        chan := PenChannel.moveStrike
          ((hitList v d.chan.filterSet).foldl (PenChannel.takeHit v.profile.lagAllocate) d.chan)
          (struckSet v.port.trail) } := by
  unfold strikeOffered; rw [up, gather]

theorem strikeOffered_track {t : Tracking} (up : v.port.state = .up) (track : d.chan.state = .track t) :
    strikeOffered v d = d.setState (.track { t with arms := t.arms.raise (struckSet v.port.trail) }) := by
  unfold strikeOffered; rw [up, track]

theorem strikeOffered_popup_held {p : Popup} (up : v.port.state = .up) (popup : d.chan.state = .popup p)
    (held : d.chan.button = .held) :
    strikeOffered v d =
      d.setState (.popup { p with tally := raiseTally p.tally (itemHits p.menu (struckSet v.port.trail)) }) := by
  unfold strikeOffered; rw [up, popup, held]

theorem strikeOffered_popup_released {p : Popup} (popup : d.chan.state = .popup p)
    (released : d.chan.button = .released) : strikeOffered v d = d := by
  unfold strikeOffered
  rw [popup, released]
  cases v.port.state <;> rfl

end

/-- A strike at an empty trail strikes nothing. -/
theorem strikeOffered_empty {v : View} {d : Desk} (empty : v.port.trail = []) : strikeOffered v d = d := by
  have none : struckSet v.port.trail = [] := by rw [empty]; rfl
  have hits : hitList v d.chan.filterSet = [] := by unfold hitList; rw [none]; rfl
  cases port : v.port.state with
  | down => exact strikeOffered_down port
  | up => cases state : d.chan.state with
    | off => exact strikeOffered_off (.inl state)
    | wait r q => exact strikeOffered_off (.inr ⟨r, q, state⟩)
    | idle => rw [strikeOffered_rest port (.inl state), none]; rfl
    | held => rw [strikeOffered_rest port (.inr state), none]; rfl
    | gather => rw [strikeOffered_gather port state, none, hits]; rfl
    | track t =>
      have same : t.arms.raise [] = t.arms := by
        unfold Arms.raise
        simp only [ArmLevel.sup_armOf, List.foldl_nil]
      rw [strikeOffered_track port state, none, same, ← state, Desk.setState_self]
    | popup p =>
      cases button : d.chan.button with
      | released => exact strikeOffered_popup_released state button
      | held =>
        have same : raiseTally p.tally (itemHits p.menu []) = p.tally := rfl
        rw [strikeOffered_popup_held port state button, none, same, ← state, Desk.setState_self]

/-- Settles O23. -/
theorem struckSetIsDrawnThenInDrawing : Obligations.StruckSetIsDrawnThenInDrawing := by
  unfold Obligations.StruckSetIsDrawnThenInDrawing
  refine ⟨fun drawn sent hd hs => struckSet_ordered hd hs, fun s n empty => ?_⟩
  exact congrArg Host.Outcome.next (State.onDesk_same (strikeOffered_empty empty))

/-! ## What a struck entry yields (R55 to R57) -/

theorem pathValues_values (path : Path) : pathValues (path.map .value) = some path := by
  induction path with
  | nil => rfl
  | cons v vs ih => rw [List.map_cons, pathValues, ih]; rfl

section
variable {b : Bank} {d : Nat} {set : BitVec 2} {e : TrailEntry}

theorem TrailEntry.yields_path {a : FileAddr} {path : Path} (visible : e.visible = true) (origin : e.origin = .stream a)
    (snap : e.snap = .name (path.map .value) false) :
    e.yields b d set =
      if 1 ≤ path.length && b.passes set path then some (.pick (path.take d), some path, a) else none := by
  unfold TrailEntry.yields
  rw [visible, origin, snap]
  dsimp only [Snapshot.cleanPath]
  rw [pathValues_values]
  rfl

theorem TrailEntry.yields_item {a : FileAddr} {m : MenuId} {k : ItemNo} (visible : e.visible = true)
    (origin : e.origin = .stream a) (snap : e.snap = .menu m .fixed (some ⟨k, false⟩)) :
    e.yields b d set = some (.menu m k, none, a) := by
  unfold TrailEntry.yields
  rw [visible, origin, snap]
  rfl

theorem TrailEntry.yields_invisible (invisible : e.visible = false) : e.yields b d set = none := by
  unfold TrailEntry.yields; rw [invisible]

theorem TrailEntry.yields_otherOrigin (other : ∀ a, e.origin ≠ .stream a) : e.yields b d set = none := by
  unfold TrailEntry.yields
  cases origin : e.origin with
  | stream a => exact absurd origin (other a)
  | _ => cases e.visible <;> rfl

/-- A snapshot that yields nothing whatever the entry's origin. -/
theorem TrailEntry.yields_none {snap : Snapshot} (same : e.snap = snap) (unclean : snap.cleanPath = none)
    (noItem : ∀ m k, snap ≠ .menu m .fixed (some ⟨k, false⟩)) : e.yields b d set = none := by
  unfold TrailEntry.yields
  rw [same]
  cases e.visible with
  | false => rfl
  | true => cases e.origin with
    | cross | readout => rfl
    | stream a => cases snap with
      | name path poisoned => dsimp only; rw [unclean]
      | menu m kind it => cases kind with
        | undefined | popup => rfl
        | fixed => cases it with
          | none => rfl
          | some k =>
            obtain ⟨k, disabled⟩ := k
            cases disabled with
            | true => rfl
            | false => exact absurd rfl (noItem m k)

theorem TrailEntry.yields_refused {path : Path} (snap : e.snap = .name (path.map .value) false)
    (refused : path = [] ∨ b.passes set path = false) : e.yields b d set = none := by
  cases visible : e.visible with
  | false => exact TrailEntry.yields_invisible visible
  | true => cases origin : e.origin with
    | cross | readout => exact TrailEntry.yields_otherOrigin fun a => by rw [origin]; nofun
    | stream a =>
      rw [TrailEntry.yields_path visible origin snap]
      refine if_neg fun yields => ?_
      obtain ⟨long, passes⟩ := Bool.and_eq_true_iff.1 yields
      rcases refused with rfl | refuses
      · cases long
      · rw [refuses] at passes; cases passes

end

/-! ## The hit list (R58) -/

/-- The hit list of a list of struck entries. -/
def hitsOf (v : View) (set : BitVec 2) (struck : List (TrailEntry × Nat)) : List Hit :=
  struck.foldl
    (fun l x =>
      match x.1.yields v.bank v.profile.d.toNat set with
      | some (ident, sample, addr) => addHit ⟨ident, x.2, sample, addr, x.1.pos, v.pass⟩ l
      | none => l) []

theorem hitList_eq (v : View) (set : BitVec 2) : hitList v set = hitsOf v set (struckSet v.port.trail) := rfl

/-- An element that a longer hit list holds is the new one, of a greater weight than any known hit on its identity, or a
known one, of no smaller weight than the new hit on its identity. -/
theorem mem_addHit {h x : Hit} {l : List Hit} (once : (l.map (·.ident)).Nodup) (mem : x ∈ addHit h l) :
    (x = h ∧ ∀ y ∈ l, y.ident = h.ident → y.weight < h.weight) ∨
      x ∈ l ∧ (x.ident = h.ident → h.weight ≤ x.weight) := by
  induction l with
  | nil => exact .inl ⟨List.mem_singleton.1 mem, nofun⟩
  | cons y ys ih =>
    obtain ⟨fresh, once⟩ := List.nodup_cons.1 once
    have other {z : Hit} (known : y.ident = h.ident) (later : z ∈ ys) : z.ident ≠ h.ident := fun same =>
      fresh (List.mem_map.2 ⟨z, later, same.trans known.symm⟩)
    unfold addHit at mem
    split_ifs at mem with known lighter
    · rcases List.mem_cons.1 mem with rfl | later
      · refine .inl ⟨rfl, fun z hz same => ?_⟩
        rcases List.mem_cons.1 hz with rfl | later
        · exact lighter
        · exact absurd same (other known later)
      · exact .inr ⟨List.mem_cons_of_mem _ later, fun same => absurd same (other known later)⟩
    · rcases List.mem_cons.1 mem with rfl | later
      · exact .inr ⟨List.mem_cons_self, fun _ => Nat.not_lt.1 lighter⟩
      · exact .inr ⟨List.mem_cons_of_mem _ later, fun same => absurd same (other known later)⟩
    · rcases List.mem_cons.1 mem with rfl | later
      · exact .inr ⟨List.mem_cons_self, fun same => absurd same known⟩
      · rcases ih once later with ⟨rfl, heavier⟩ | ⟨old, bound⟩
        · refine .inl ⟨rfl, fun z hz same => ?_⟩
          rcases List.mem_cons.1 hz with rfl | hz
          · exact absurd same known
          · exact heavier z hz same
        · exact .inr ⟨List.mem_cons_of_mem _ old, bound⟩

section
variable (v : View) (set : BitVec 2)

/-- What an entry yields under the view's bank and station (R55, R56). -/
def View.yields (e : TrailEntry) : Option (Identity × Option Path × FileAddr) :=
  e.yields v.bank v.profile.d.toNat set

/-- The hit of a struck entry that yields `z`. -/
def View.hitOf (x : TrailEntry × Nat) (z : Identity × Option Path × FileAddr) : Hit :=
  ⟨z.1, x.2, z.2.1, z.2.2, x.1.pos, v.pass⟩

theorem hitsOf_snoc_none {struck : List (TrailEntry × Nat)} {x : TrailEntry × Nat} (none : v.yields set x.1 = none) :
    hitsOf v set (struck ++ [x]) = hitsOf v set struck := by
  unfold View.yields at none
  unfold hitsOf
  rw [List.foldl_append, List.foldl_cons, none]
  rfl

theorem hitsOf_snoc_some {struck : List (TrailEntry × Nat)} {x : TrailEntry × Nat}
    {z : Identity × Option Path × FileAddr}
    (some : v.yields set x.1 = some z) :
    hitsOf v set (struck ++ [x]) = addHit (v.hitOf x z) (hitsOf v set struck) := by
  unfold View.yields at some
  unfold hitsOf
  rw [List.foldl_append, List.foldl_cons, some]
  rfl

theorem hitsOf_nodup (struck : List (TrailEntry × Nat)) : ((hitsOf v set struck).map (·.ident)).Nodup := by
  induction struck using List.reverseRecOn with
  | nil => exact List.nodup_nil
  | append_singleton struck x ih =>
    cases yields : v.yields set x.1 with
    | none => rw [hitsOf_snoc_none v set yields]; exact ih
    | some z =>
      rw [hitsOf_snoc_some v set yields, addHit_idents]
      split_ifs with known
      · exact ih
      · exact List.nodup_append.2 ⟨ih, List.nodup_singleton _, fun a ha b hb same =>
          known (List.mem_singleton.1 hb ▸ same ▸ ha)⟩

/-- Every identity yielded has its element. -/
theorem hitsOf_covers (struck : List (TrailEntry × Nat)) :
    ∀ y ∈ struck, ∀ z, v.yields set y.1 = some z → z.1 ∈ (hitsOf v set struck).map (·.ident) := by
  induction struck using List.reverseRecOn with
  | nil => exact nofun
  | append_singleton struck x ih =>
    intro y hy z yielded
    cases yields : v.yields set x.1 with
    | none =>
      rw [hitsOf_snoc_none v set yields]
      rcases List.mem_append.1 hy with old | new
      · exact ih y old z yielded
      · rw [List.mem_singleton.1 new, yields] at yielded; cases yielded
    | some u =>
      have known : z.1 ∈ (hitsOf v set struck).map (·.ident) ∨ z.1 = u.1 := by
        rcases List.mem_append.1 hy with old | new
        · exact .inl (ih y old z yielded)
        · rw [List.mem_singleton.1 new, yields] at yielded
          exact .inr (congrArg Prod.fst (Option.some.inj yielded)).symm
      rw [hitsOf_snoc_some v set yields, addHit_idents]
      split_ifs with has
      · exact known.elim id fun same => same ▸ has
      · exact List.mem_append.2 (known.imp id fun same => List.mem_singleton.2 same)

/-- Entry `e` stands in the struck set for the element `x`: it yields it with its weight, no earlier entry of its
identity is as heavy, and no later one is heavier. -/
def View.StandsFor (struck : List (TrailEntry × Nat)) (x : Hit) : Prop :=
  ∃ pre e post, struck = pre ++ (e, x.weight) :: post ∧
    v.yields set e = some (x.ident, x.sample, x.addr) ∧ x.pos = e.pos ∧ x.pass = v.pass ∧
    (∀ y ∈ pre, ∀ z, v.yields set y.1 = some z → z.1 = x.ident → y.2 < x.weight) ∧
    (∀ y ∈ post, ∀ z, v.yields set y.1 = some z → z.1 = x.ident → y.2 ≤ x.weight)

variable {v set}

/-- No entry of an identity is heavier than the one that stands for it. -/
theorem View.StandsFor.bound {struck : List (TrailEntry × Nat)} {x : Hit} (stands : v.StandsFor set struck x)
    {y : TrailEntry × Nat} (hy : y ∈ struck) {z : Identity × Option Path × FileAddr}
    (yields : v.yields set y.1 = some z)
    (same : z.1 = x.ident) : y.2 ≤ x.weight := by
  obtain ⟨pre, e, post, rfl, -, -, -, before, after⟩ := stands
  rcases List.mem_append.1 hy with earlier | later
  · exact (before y earlier z yields same).le
  · rcases List.mem_cons.1 later with rfl | later
    · exact Nat.le_refl _
    · exact after y later z yields same

/-- A later entry that is no heavier changes nothing. -/
theorem View.StandsFor.snoc {struck : List (TrailEntry × Nat)} {x : Hit} (stands : v.StandsFor set struck x)
    {y : TrailEntry × Nat} (light : ∀ z, v.yields set y.1 = some z → z.1 = x.ident → y.2 ≤ x.weight) :
    v.StandsFor set (struck ++ [y]) x := by
  obtain ⟨pre, e, post, rfl, yields, pos, pass, before, after⟩ := stands
  refine ⟨pre, e, post ++ [y], by simp, yields, pos, pass, before, fun w hw => ?_⟩
  rcases List.mem_append.1 hw with old | new
  · exact after w old
  · rw [List.mem_singleton.1 new]; exact light

variable (v set)

theorem hitsOf_standsFor (struck : List (TrailEntry × Nat)) : ∀ x ∈ hitsOf v set struck, v.StandsFor set struck x := by
  induction struck using List.reverseRecOn with
  | nil => exact nofun
  | append_singleton struck y ih =>
    intro x hx
    cases yields : v.yields set y.1 with
    | none =>
      rw [hitsOf_snoc_none v set yields] at hx
      exact (ih x hx).snoc fun z yielded => nomatch yields.symm.trans yielded
    | some u =>
      rw [hitsOf_snoc_some v set yields] at hx
      rcases mem_addHit (hitsOf_nodup v set struck) hx with ⟨rfl, heavier⟩ | ⟨old, bound⟩
      · refine ⟨struck, y.1, [], rfl, yields, rfl, rfl, fun w hw z yielded same => ?_, nofun⟩
        obtain ⟨known, mem, ident⟩ := List.mem_map.1 (hitsOf_covers v set struck w hw z yielded)
        exact Nat.lt_of_le_of_lt ((ih known mem).bound hw yielded ident.symm) (heavier known mem (ident.trans same))
      · refine (ih x old).snoc fun z yielded same => ?_
        obtain rfl : u = z := Option.some.inj (yields.symm.trans yielded)
        exact bound same.symm

end

/-- Settles O24: what an entry yields case by case; the hit list by induction over the struck set. -/
theorem hitListNamesEachIdentityOnce : Obligations.HitListNamesEachIdentityOnce := by
  unfold Obligations.HitListNamesEachIdentityOnce
  refine ⟨fun b d set e => ⟨fun a path visible origin snap long passes => ?_,
    fun a m k visible origin snap => TrailEntry.yields_item visible origin snap, TrailEntry.yields_invisible,
    TrailEntry.yields_otherOrigin, fun path snap => TrailEntry.yields_none snap rfl nofun,
    fun path snap refused => TrailEntry.yields_refused snap refused, fun m kind it snap other => ?_⟩,
    fun v set => ⟨hitsOf_nodup v set _, hitsOf_standsFor v set _, fun y hy z yields => ?_, ?_⟩⟩
  · have some : 1 ≤ path.length := List.length_pos_iff.2 long
    rw [TrailEntry.yields_path visible origin snap, passes, decide_eq_true some]
    rfl
  · refine TrailEntry.yields_none snap rfl fun m' k same => ?_
    cases same
    rcases other with kind | item | ⟨_, item⟩
    · exact kind rfl
    · cases item
    · cases item
  · exact List.mem_map.1 (hitsOf_covers v set _ y hy z yields)
  · refine (List.pairwise_map.1 (hitList_order v set)).imp ?_
    rintro x y ⟨pre, e, post, split, yields, none⟩
    exact ⟨pre, e, post, split, yields, fun f hf z yielded same => none f hf ⟨z, yielded, same⟩⟩

end Sys2Proof.Machine
end

section
/-! SUPPORT and PROOFS. What a strike leaves of its channel (sections 4.3, 5.3, 7.4 and 8.2), and what one element of
a hit list does to the candidate table. -/

namespace Sys2Proof.Machine

/-! ## A strike that moves the channel alone -/

/-- A strike that changes the channel and keeps it in or out of POPUP. -/
theorem exec_strike_chan {s : State} {n : HeadNo} {c : PenChannel}
    (struck : strikeOffered (s.view n) (s.desk n) = { s.desk n with chan := c })
    (popup : s.chans[n].state.isPopup = false ∨ c.state.isPopup = true) :
    exec (.strike n) s = .next (s.withChan n c) :=
  congrArg Host.Outcome.next (State.onDesk_chan struck (popup.imp_right .inl))

theorem exec_strike_same {s : State} {n : HeadNo} (same : strikeOffered (s.view n) (s.desk n) = s.desk n) :
    exec (.strike n) s = .next s := congrArg Host.Outcome.next (State.onDesk_same same)

/-- A strike with a struck entry moves the last strike position to the last of them (R62). -/
theorem PenChannel.moveStrike_eq {c : PenChannel} {struck : List (TrailEntry × Nat)} {e : TrailEntry}
    (last : struck.getLast?.map (·.1) = some e) : c.moveStrike struck = { c with lastStrike := some e.pos } := by
  have point : strikePoint struck = some e.pos := by
    unfold strikePoint
    obtain ⟨x, youngest, rfl⟩ := Option.map_eq_some_iff.1 last
    rw [youngest]
    rfl
  unfold PenChannel.moveStrike
  rw [point]

theorem PenChannel.takeHits_state (lag : Bool) (hits : List Hit) (c : PenChannel) :
    (hits.foldl (PenChannel.takeHit lag) c).state = c.state :=
  List.foldlRecOn (motive := fun c' : PenChannel => c'.state = c.state) hits _ rfl
    fun _ same x _ => by rw [PenChannel.takeHit_frame]; exact same

/-- Settles O25. -/
theorem strikeInGatherHandsOnTheHitList : Obligations.StrikeInGatherHandsOnTheHitList := by
  unfold Obligations.StrikeInGatherHandsOnTheHitList
  intro s n e up gather last
  exact exec_strike_chan ((strikeOffered_gather up gather).trans
    (congrArg (fun c => { s.desk n with chan := c }) (PenChannel.moveStrike_eq last))) (.inl (by rw [gather]; rfl))

/-! ## One element of a hit list (R69 to R72) -/

theorem allHeads_find? {p : HeadNo → Bool} {i : HeadNo} (holds : p i = true)
    (first : ∀ j : HeadNo, j < i → p j = false) :
    allHeads.find? p = some i := by
  have heads : ∀ k : Fin 4, allHeads[k.val]'k.isLt = k := by decide
  refine List.find?_eq_some_iff_getElem.2 ⟨holds, i.val, i.isLt, heads i, fun j before => ?_⟩
  have head := heads ⟨j, Nat.lt_trans before i.isLt⟩
  exact (congrArg (!p ·) head).trans (congrArg (!·) (first ⟨j, Nat.lt_trans before i.isLt⟩ before))

theorem firstInvalid_eq_some {t : Vector (Option Candidate) 4} {i : Fin 4} (invalid : t[i] = none)
    (first : ∀ j : Fin 4, j < i → t[j] ≠ none) : firstInvalid t = some i :=
  allHeads_find? (by rw [invalid]; rfl) fun j before => by
    obtain ⟨e, valid⟩ := Option.ne_none_iff_exists'.1 (first j before)
    rw [valid]; rfl

theorem firstInvalid_eq_none {t : Vector (Option Candidate) 4} (full : ∀ i : Fin 4, t[i] ≠ none) :
    firstInvalid t = none := by
  refine List.find?_eq_none.2 fun i _ => ?_
  obtain ⟨e, valid⟩ := Option.ne_none_iff_exists'.1 (full i)
  rw [valid]
  nofun

section
variable {lag : Bool} {c : PenChannel} {h : Hit}

/-- A known identity gains hits (R71). -/
theorem PenChannel.takeHit_known {i : Fin 4} (found : findEntry c.table h.ident = some i) :
    c.takeHit lag h =
      { c with table := c.table.set i (c.table[i].map (·.hit h)), tree := c.tree.touch i } := by
  unfold PenChannel.takeHit; rw [found]

/-- A new identity that may not allocate changes nothing (R72). -/
theorem PenChannel.takeHit_refused (absent : findEntry c.table h.ident = none) (light : h.weight ≠ 2) :
    c.takeHit false h = c := by
  unfold PenChannel.takeHit
  rw [absent]
  exact if_neg (by simp [light])

/-- A new identity that may allocate takes the lowest invalid entry (R72). -/
theorem PenChannel.takeHit_allocates {i : Fin 4} (absent : findEntry c.table h.ident = none)
    (may : h.weight = 2 ∨ lag = true) (invalid : firstInvalid c.table = some i) :
    c.takeHit lag h = { c with table := c.table.set i (some h.candidate), tree := c.tree.touch i } := by
  unfold PenChannel.takeHit
  rw [absent, invalid]
  exact if_pos (by simpa using may)

/-- In a full table it takes the tree's victim (R72). -/
theorem PenChannel.takeHit_replaces (absent : findEntry c.table h.ident = none) (may : h.weight = 2 ∨ lag = true)
    (full : firstInvalid c.table = none) :
    c.takeHit lag h =
      { c with
        table := c.table.set c.tree.victim (some h.candidate), tree := c.tree.touch c.tree.victim,
        crowded := true } := by
  unfold PenChannel.takeHit
  rw [absent, full]
  exact if_pos (by simpa using may)

end

/-- Settles O26, by whether the identity is known, may allocate, and finds an invalid entry. -/
theorem candidateTableTakesAHit : Obligations.CandidateTableTakesAHit := by
  unfold Obligations.CandidateTableTakesAHit
  refine ⟨fun lag c h => ⟨fun i e entry known unique => ?_,
    fun new => ⟨fun light lag => ?_, fun may => ⟨fun i invalid first
    => ?_, fun full => ?_⟩⟩⟩, fun p q1 r3 => ⟨rfl, rfl, rfl, rfl, rfl, rfl, rfl, rfl⟩⟩
  · rw [PenChannel.takeHit_known (findEntry_eq_some entry known unique), entry]
    rfl
  · rw [lag]
    exact PenChannel.takeHit_refused (findEntry_eq_none.2 new) light
  · exact PenChannel.takeHit_allocates (findEntry_eq_none.2 new) may (firstInvalid_eq_some invalid first)
  · exact PenChannel.takeHit_replaces (findEntry_eq_none.2 new) may (firstInvalid_eq_none full)

/-! ## Arms and item hits (R59, R60, R116, R134) -/

/-- A level raised by the entries of a strike is the greatest of its own and theirs. -/
theorem armRaised_sup (struck : List (TrailEntry × Nat)) (a : Arm) (l : ArmLevel) :
    ArmRaised struck a l (l.sup (armOf struck a)) := by
  have outer : (∃ x ∈ struck, x.1.armLevel a = .outer) ↔ ArmStruck struck a .outer :=
    exists_congr fun x => and_congr_right fun _ => by
      rw [TrailEntry.armLevel_eq]; split_ifs <;> simp_all
  have none : (∀ x ∈ struck, x.1.armLevel a = .none) ↔
      ¬ ArmStruck struck a .outer ∧ ¬ ArmStruck struck a .inner := by
    unfold ArmStruck
    push Not
    rw [← forall_and]
    refine forall_congr' fun x => ?_
    rw [TrailEntry.armLevel_eq]
    split_ifs <;> simp_all
  obtain ⟨isOuter, isNone⟩ := foldl_sup_armLevel struck a l
  rw [← ArmLevel.sup_armOf, outer] at isOuter
  rw [← ArmLevel.sup_armOf, none] at isNone
  refine ⟨isOuter.2, fun notOuter notStruck inner => ?_, fun old o i => isNone.2 ⟨old, o, i⟩⟩
  have notOut : l.sup (armOf struck a) ≠ .outer := fun out => (isOuter.1 out).elim notOuter notStruck
  have notNone : l.sup (armOf struck a) ≠ .none := fun zero => by
    obtain ⟨old, -, unstruck⟩ := isNone.1 zero
    rcases inner with was | hit
    · rw [old] at was; cases was
    · exact unstruck hit
  cases new : l.sup (armOf struck a) with
  | outer => exact absurd new notOut
  | inner => rfl
  | none => exact absurd new notNone

theorem itemStruck_iff (struck : List (TrailEntry × Nat)) (m : MenuId) (k : Fin 32) (w : Nat) :
    ItemStruck struck m k w ↔ ∃ y ∈ struck, y.2 = w ∧ y.1.tallyItem m = some (BitVec.ofFin k) := by
  unfold ItemStruck
  simp only [TrailEntry.tallyItem_eq_some]

/-- The greatest weight at which an item is struck is the weight its counter gains. -/
theorem raiseTally_struck (t : Vector Nat 32) (m : MenuId) (struck : List (TrailEntry × Nat))
    (weights : ∀ x ∈ struck, x.2 = 1 ∨ x.2 = 2) (k : Fin 32) :
    (ItemStruck struck m k 2 → (raiseTally t (itemHits m struck))[k] = min 255 (t[k] + 2)) ∧
    (¬ ItemStruck struck m k 2 → ItemStruck struck m k 1 →
      (raiseTally t (itemHits m struck))[k] = min 255 (t[k] + 1)) ∧
    (¬ ItemStruck struck m k 2 → ¬ ItemStruck struck m k 1 → (raiseTally t (itemHits m struck))[k] = t[k]) := by
  obtain ⟨once, listed, weighed⟩ := itemHits_spec m struck
  obtain ⟨bound, attained⟩ := weighed (BitVec.ofFin k)
  have hit : (∃ x ∈ itemHits m struck, x.1.toFin = k) ↔ ItemStruck struck m k 2 ∨ ItemStruck struck m k 1 := by
    have same (x : ItemNo × Nat) : x.1.toFin = k ↔ x.1 = BitVec.ofFin k := by rw [← BitVec.toFin_inj]
    simp only [same, listed, itemStruck_iff]
    constructor
    · rintro ⟨y, hy, item⟩
      rcases weights y hy with one | two
      · exact .inr ⟨y, hy, one, item⟩
      · exact .inl ⟨y, hy, two, item⟩
    · rintro (⟨y, hy, -, item⟩ | ⟨y, hy, -, item⟩) <;> exact ⟨y, hy, item⟩
  have weight : ∀ w, ItemStruck struck m k w → w ≤ itemWeight (itemHits m struck) (BitVec.ofFin k) :=
    fun w isStruck => by
    obtain ⟨y, hy, rfl, item⟩ := (itemStruck_iff ..).1 isStruck
    exact bound y hy item
  have heaviest : itemWeight (itemHits m struck) (BitVec.ofFin k) = 0 ∨
      ItemStruck struck m k (itemWeight (itemHits m struck) (BitVec.ofFin k)) := attained.imp id fun ⟨y, hy, item, w⟩ =>
    (itemStruck_iff ..).2 ⟨y, hy, w, item⟩
  have small : itemWeight (itemHits m struck) (BitVec.ofFin k) ≤ 2 := by
    rcases attained with zero | ⟨y, hy, -, w⟩
    · omega
    · rcases weights y hy with one | two <;> omega
  rw [raiseTally_get _ _ once]
  refine ⟨fun two => ?_, fun notTwo one => ?_, fun notTwo notOne => if_neg fun any => (hit.1 any).elim notTwo notOne⟩
  · rw [if_pos (hit.2 (.inl two)), show itemWeight _ _ = 2 from Nat.le_antisymm small (weight 2 two)]
  · have notHeavy : itemWeight (itemHits m struck) (BitVec.ofFin k) ≠ 2 := fun two => by
      rcases heaviest with zero | struckSo
      · omega
      · exact notTwo (two ▸ struckSo)
    have atLeast := weight 1 one
    rw [if_pos (hit.2 (.inr one)), show itemWeight _ _ = 1 by omega]

/-- Settles O27, by the channel state and the head's. -/
theorem strikeOutsideGather : Obligations.StrikeOutsideGather := by
  unfold Obligations.StrikeOutsideGather
  refine fun s n => ⟨fun down => ?_, fun off => ?_, fun e up rest last => ?_, fun t up track => ?_,
    fun p up popup held => ?_, fun p popup released => ?_⟩
  · exact exec_strike_same (strikeOffered_down down)
  · exact exec_strike_same (strikeOffered_off off)
  · have noPopup : s.chans[n].state.isPopup = false := by rcases rest with state | state <;> rw [state] <;> rfl
    exact exec_strike_chan ((strikeOffered_rest up rest).trans
      (congrArg (fun c => { s.desk n with chan := c }) (PenChannel.moveStrike_eq last))) (.inl noPopup)
  · exact ⟨_, exec_strike_chan (strikeOffered_track up track) (.inl (by rw [track]; rfl)), armRaised_sup _ _ _,
      armRaised_sup _ _ _, armRaised_sup _ _ _, armRaised_sup _ _ _⟩
  · exact ⟨_, exec_strike_chan (strikeOffered_popup_held up popup held) (.inr rfl),
      raiseTally_struck p.tally p.menu _ (struckSet_weight _)⟩
  · exact exec_strike_same (strikeOffered_popup_released popup released)

end Sys2Proof.Machine
end

section
/-! SUPPORT and PROOFS. Tip events in each channel state (sections 5.2 and 7.4), and the winner of a resolution
(R76). -/

namespace Sys2Proof.Machine

/-! ## Tip events in each channel state (R51, R52, R68, R75, R109, R137) -/

section
variable {v : View} {d : Desk}

theorem tipDownOffered_idle (up : v.port.state = .up) (idle : d.chan.state = .idle) :
    tipDownOffered v d = { d with chan := d.chan.beginAttempt } := by
  unfold tipDownOffered; rw [up, idle]

theorem tipDownOffered_other (other : ¬ (v.port.state = .up ∧ d.chan.state = .idle)) : tipDownOffered v d = d := by
  unfold tipDownOffered
  split
  · rfl
  · next up idle => exact absurd ⟨up, idle⟩ other
  all_goals rfl

theorem tipUpOffered_other
    (other : v.port.state = .down ∨ d.chan.state = .off ∨ d.chan.state = .idle ∨ ∃ r q, d.chan.state = .wait r q) :
    tipUpOffered v d = d := by
  unfold tipUpOffered
  rcases other with down | state | state | ⟨r, q, state⟩
  · rw [down]
  all_goals rw [state]; cases v.port.state <;> rfl

theorem tipUpOffered_held (up : v.port.state = .up) (held : d.chan.state = .held) :
    tipUpOffered v d = d.setState .idle := by
  unfold tipUpOffered; rw [up, held]

theorem tipUpOffered_track {t : Tracking} (up : v.port.state = .up) (track : d.chan.state = .track t) :
    tipUpOffered v d = d.offer (.trackEnd t.pos) .idle := by
  unfold tipUpOffered; rw [up, track]

theorem tipUpOffered_popup {p : Popup} (up : v.port.state = .up) (popup : d.chan.state = .popup p) :
    tipUpOffered v d = d.setState (.popup { p with slot := { p.slot with note := true } }) := by
  unfold tipUpOffered; rw [up, popup]

theorem tipUpOffered_gather (up : v.port.state = .up) (gather : d.chan.state = .gather) :
    tipUpOffered v d = gatherTipUp v d := by
  unfold tipUpOffered; rw [up, gather]

theorem gatherTipUp_empty (empty : d.chan.Empty) :
    gatherTipUp v d = Desk.offer { d with chan := d.chan.emptied } (.miss v.pass) .idle := by
  unfold gatherTipUp
  rw [PenChannel.anyCandidate_eq_false.2 empty]
  rfl

end

theorem exec_tipDown_same {s : State} {n : HeadNo} (down : s.chans[n].tip = .down) : exec (.tipDown n) s = .next s := by
  refine congrArg Host.Outcome.next (State.onDesk_same ?_)
  unfold tipDown
  rw [show (s.desk n).chan.tip = .down from down]

theorem exec_tipDown_up {s : State} {n : HeadNo} (up : s.chans[n].tip = .up) :
    exec (.tipDown n) s = .next (s.putDesk n (tipDownOffered (s.view n)
      { s.desk n with chan := { s.chans[n] with tip := .down } })) := by
  show Host.Outcome.next (s.onDesk n tipDown) = _
  unfold State.onDesk tipDown
  rw [show (s.desk n).chan.tip = .up from up]
  rfl

theorem exec_tipUp_same {s : State} {n : HeadNo} (up : s.chans[n].tip = .up) : exec (.tipUp n) s = .next s := by
  refine congrArg Host.Outcome.next (State.onDesk_same ?_)
  unfold tipUp
  rw [show (s.desk n).chan.tip = .up from up]

theorem exec_tipUp_down {s : State} {n : HeadNo} (down : s.chans[n].tip = .down) :
    exec (.tipUp n) s = .next (s.putDesk n (tipUpOffered (s.view n)
      { s.desk n with chan := { s.chans[n] with tip := .up } })) := by
  show Host.Outcome.next (s.onDesk n tipUp) = _
  unfold State.onDesk tipUp
  rw [show (s.desk n).chan.tip = .down from down]
  rfl

/-- A channel that keeps its state ends no delivery. -/
theorem State.putDesk_keepsState (s : State) (n : HeadNo) {c : PenChannel}
    (state : c.state.isPopup = s.chans[n].state.isPopup) :
    s.putDesk n { s.desk n with chan := c } = s.withChan n c := by
  refine State.onDesk_chan (f := fun _ d => { d with chan := c }) rfl ?_
  cases popup : s.chans[n].state.isPopup with
  | false => exact .inl rfl
  | true => exact .inr (.inl (state.trans popup))

/-- Settles O28, by the tip's level, the head's state and the channel's. -/
theorem tipEventsInEachState : Obligations.TipEventsInEachState := by
  unfold Obligations.TipEventsInEachState
  refine ⟨fun s n => ⟨exec_tipDown_same, fun tip up idle => ?_, fun tip other => ?_⟩,
    fun s n => ⟨exec_tipUp_same, fun tip => ⟨fun other => ?_, fun up => ⟨fun held => ?_, fun gather empty => ?_,
      fun t track => ?_, fun p popup => ?_⟩⟩⟩⟩
  · rw [exec_tipDown_up tip, tipDownOffered_idle up idle]
    exact congrArg Host.Outcome.next ((State.quiet_of_state idle rfl).chan _)
  · rw [exec_tipDown_up tip, tipDownOffered_other other]
    exact congrArg Host.Outcome.next (s.putDesk_keepsState n rfl)
  · rw [exec_tipUp_down tip, tipUpOffered_other other]
    exact congrArg Host.Outcome.next (s.putDesk_keepsState n rfl)
  · rw [exec_tipUp_down tip, tipUpOffered_held up held]
    exact congrArg Host.Outcome.next ((State.quiet_of_state held rfl).chan _)
  · rw [exec_tipUp_down tip, tipUpOffered_gather up gather, gatherTipUp_empty empty]
    exact congrArg Host.Outcome.next ((State.quiet_of_state gather rfl).offer _ _ _)
  · rw [exec_tipUp_down tip, tipUpOffered_track up track]
    exact congrArg Host.Outcome.next ((State.quiet_of_state track rfl).offer _ _ _)
  · rw [exec_tipUp_down tip, tipUpOffered_popup up popup]
    exact congrArg Host.Outcome.next (s.putDesk_keepsState n (by rw [popup]; rfl))

/-! ## The order of the keys (R76) -/

/-- What is less than a list of keys is less than any list of keys that is not less than it. -/
theorem keysLess_of_notLess {x y z : List Nat} (less : keysLess x y = true) (notLess : keysLess z y = false)
    (length : y.length = z.length) : keysLess x z = true := by
  induction x generalizing y z with
  | nil => cases less
  | cons a x ih =>
    cases y with
    | nil => cases less
    | cons b y => cases z with
      | nil => cases length
      | cons c z =>
        simp only [keysLess, Bool.or_eq_true, decide_eq_true_eq, Bool.and_eq_true, beq_iff_eq] at less ⊢
        simp only [keysLess, Bool.or_eq_false_iff, decide_eq_false_iff_not, Bool.and_eq_false_iff,
          beq_eq_false_iff_ne] at notLess
        obtain ⟨notSmaller, after⟩ := notLess
        rcases less with smaller | ⟨rfl, less⟩
        · exact .inl (by omega)
        · rcases after with differs | notLess
          · exact .inl (by omega)
          · by_cases same : a = c
            · exact .inr ⟨same, ih less notLess (Nat.succ.inj length)⟩
            · exact .inl (by omega)

theorem keysLess_trichotomy {x y : List Nat} (notLess : keysLess x y = false) (length : x.length = y.length) :
    keysLess y x = true ∨ y = x := by
  induction x generalizing y with
  | nil => exact .inr (List.eq_nil_of_length_eq_zero length.symm)
  | cons a x ih =>
    cases y with
    | nil => cases length
    | cons b y =>
      simp only [keysLess, Bool.or_eq_false_iff, decide_eq_false_iff_not, Bool.and_eq_false_iff,
        beq_eq_false_iff_ne] at notLess
      simp only [keysLess, Bool.or_eq_true, decide_eq_true_eq, Bool.and_eq_true, beq_iff_eq, List.cons.injEq]
      obtain ⟨notSmaller, after⟩ := notLess
      by_cases same : b = a
      · subst same
        have tails : keysLess x y = false := after.resolve_left fun differs => differs rfl
        exact (ih tails (Nat.succ.inj length)).imp (fun less => .inr ⟨rfl, less⟩) fun same => ⟨rfl, same⟩
      · exact .inl (.inl (by omega))

theorem Candidate.keys_length (b : Bank) (c : Candidate) : (c.keys b).length = 5 := rfl

/-- The order of R76 by its six keys. -/
theorem goesBefore_iff (b : Bank) (c d : Candidate) (i j : Nat) :
    goesBefore b c i d j ↔ keysLess (d.keys b) (c.keys b) = true ∨ d.keys b = c.keys b ∧ i < j := by
  unfold goesBefore Candidate.keys Candidate.priority
  simp only [keysLess, Bool.or_eq_true, decide_eq_true_eq, Bool.and_eq_true, beq_iff_eq, List.cons.injEq, and_true,
    Bool.false_eq_true, and_false, or_false]
  cases c.ident <;> cases d.ident <;> dsimp only <;> omega

/-- The first of a list stands after candidates of lesser keys, and before candidates of no greater ones. -/
theorem firstOf_split {b : Bank} {l : List Candidate} {w : Candidate} (first : firstOf b l = some w) :
    ∃ pre post, l = pre ++ w :: post ∧ (∀ d ∈ pre, keysLess (d.keys b) (w.keys b) = true) ∧
      ∀ d ∈ post, keysLess (w.keys b) (d.keys b) = false := by
  induction l generalizing w with
  | nil => cases first
  | cons c cs ih =>
    unfold firstOf at first
    cases rest : firstOf b cs with
    | none =>
      rw [rest] at first
      cases first
      exact ⟨[], cs, rfl, nofun, by rw [firstOf_eq_none rest]; nofun⟩
    | some best =>
      rw [rest] at first
      dsimp only at first
      obtain ⟨pre, post, split, before, after⟩ := ih rest
      split_ifs at first with less
      · cases first
        refine ⟨c :: pre, post, by rw [split]; rfl, fun d hd => ?_, after⟩
        rcases List.mem_cons.1 hd with rfl | hd
        · exact less
        · exact before d hd
      · cases first
        refine ⟨[], cs, rfl, nofun, fun d hd => Bool.eq_false_iff.2 fun lessThan => less ?_⟩
        have notLess : keysLess (best.keys b) (d.keys b) = false := by
          rw [split] at hd
          rcases List.mem_append.1 hd with earlier | later
          · exact keysLess_asymm _ _ (before d earlier)
          · rcases List.mem_cons.1 later with rfl | later
            · exact keysLess_irrefl _
            · exact after d later
        exact keysLess_of_notLess lessThan notLess rfl

/-- The place in the table of a candidate of the list: those before it are the valid entries of lower number. -/
theorem PenChannel.candidates_place {c : PenChannel} {w : Candidate} {pre post : List Candidate}
    (split : c.candidates = pre ++ w :: post) :
    ∃ i : Fin 4, c.table[i] = some w ∧ (∀ (j : Fin 4) d, j < i → c.table[j] = some d → d ∈ pre) ∧
      ∀ (j : Fin 4) d, i < j → c.table[j] = some d → d ∈ post := by
  unfold PenChannel.candidates at split
  obtain ⟨low, rest, entries, lows, rests⟩ := List.filterMap_eq_append_iff.1 split
  obtain ⟨gap, x, high, rfl, gaps, entry, highs⟩ := List.filterMap_eq_cons_iff.1 rests
  have size : c.table.toList.length = 4 := by simp
  have whole : c.table.toList = (low ++ gap) ++ x :: high := by rw [entries, List.append_assoc]
  have place : (low ++ gap).length < 4 := by
    have total := congrArg List.length whole
    rw [size, List.length_append, List.length_cons] at total
    omega
  have get (j : Fin 4) : c.table.toList[j.val]? = some c.table[j] := by simp
  have before (d : Candidate) (mem : some d ∈ low ++ gap) : d ∈ pre := by
    rcases List.mem_append.1 mem with inLow | inGap
    · exact lows ▸ List.mem_filterMap.2 ⟨_, inLow, rfl⟩
    · exact absurd (gaps _ inGap) nofun
  refine ⟨⟨(low ++ gap).length, place⟩, ?_, fun j d lower valid => ?_, fun j d higher valid => ?_⟩
  · have here := get ⟨(low ++ gap).length, place⟩
    rw [whole, List.getElem?_append_right (Nat.le_refl _), Nat.sub_self] at here
    exact (Option.some.inj here).symm.trans entry
  · have there := get j
    rw [valid, whole, List.getElem?_append_left lower] at there
    exact before d (List.mem_of_getElem? there)
  · have there := get j
    obtain ⟨k, later⟩ : ∃ k, j.val - (low ++ gap).length = k + 1 :=
      Nat.exists_eq_succ_of_ne_zero (Nat.sub_ne_zero_of_lt higher)
    rw [valid, whole, List.getElem?_append_right (Nat.le_of_lt higher), later, List.getElem?_cons_succ] at there
    exact highs ▸ List.mem_filterMap.2 ⟨_, List.mem_of_getElem? there, rfl⟩

/-- Settles O29: the first of the candidates has a place in the table, and every other entry goes after it. -/
theorem winnerIsFirstInTheOrder : Obligations.WinnerIsFirstInTheOrder := by
  unfold Obligations.WinnerIsFirstInTheOrder
  refine fun b c => ⟨⟨fun none i => ?_, fun empty => ?_⟩, fun w wins => ?_⟩
  · cases entry : c.table[i] with
    | none => rfl
    | some w =>
      obtain ⟨pre, post, split, -, -⟩ := c.candidates_around entry
      rw [firstOf_eq_none none] at split
      exact absurd split.symm (List.append_ne_nil_of_right_ne_nil _ nofun)
  · cases wins : c.winner b with
    | none => rfl
    | some w =>
      obtain ⟨pre, post, split, -, -⟩ := firstOf_split wins
      obtain ⟨i, entry, -, -⟩ := PenChannel.candidates_place split
      exact nomatch (empty i).symm.trans entry
  · obtain ⟨pre, post, split, before, after⟩ := firstOf_split wins
    obtain ⟨i, entry, lower, higher⟩ := PenChannel.candidates_place split
    refine ⟨i, entry, fun j d other valid => (goesBefore_iff ..).2 ?_⟩
    rcases Nat.lt_or_gt_of_ne fun same => other (Fin.ext same) with below | above
    · exact .inl (before d (lower j d below valid))
    · exact (keysLess_trichotomy (after d (higher j d above valid)) rfl).imp id fun same => ⟨same, above⟩

end Sys2Proof.Machine
end

section
/-! SUPPORT and PROOFS. Filter sets and classes (chapter 6), and what a resolution leaves and offers (sections 5.4 and
7.2). -/

namespace Sys2Proof.Machine

/-! ## Filter sets and classes (R92 to R100) -/

theorem family?_eq_some {path : Path} {k : Fin 64} :
    family? path = some k ↔ ∃ v, path[1]? = some v ∧ v.toNat = k.val := by
  unfold family?
  split
  · next v rest =>
    simp only [List.getElem?_cons_succ, List.getElem?_cons_zero, Option.some.injEq, exists_eq_left']
    split_ifs with family
    · exact Option.some_inj.trans Fin.ext_iff
    · exact iff_of_false nofun fun same => family (same ▸ k.isLt)
  · next short =>
    refine iff_of_false nofun ?_
    rintro ⟨v, second, -⟩
    cases path with
    | nil => cases second
    | cons u rest => cases rest with
      | nil => cases second
      | cons w rest => exact short u w rest rfl

theorem family?_eq_none {path : Path} :
    family? path = none ↔ path[1]? = none ∨ ∃ v, path[1]? = some v ∧ 64 ≤ v.toNat := by
  constructor
  · intro other
    cases second : path[1]? with
    | none => exact .inl rfl
    | some v =>
      refine .inr ⟨v, rfl, Nat.not_lt.1 fun family => ?_⟩
      exact nomatch other.symm.trans (family?_eq_some (k := ⟨v.toNat, family⟩).2 ⟨v, second, rfl⟩)
  · intro other
    cases family : family? path with
    | none => rfl
    | some k =>
      obtain ⟨v, second, value⟩ := family?_eq_some.1 family
      rcases other with short | ⟨w, second', large⟩
      · exact nomatch short.symm.trans second
      · obtain rfl : v = w := Option.some.inj (second.symm.trans second')
        exact absurd k.isLt (by omega)

/-- The family test by the value at level 2 (R92). -/
theorem familyTest_iff (f : FilterEntry) (path : Path) :
    f.familyTest path = true ↔
      (∀ v, path[1]? = some v → v.toNat < 64 → f.mask.getLsbD v.toNat = true) ∧
      ((path[1]? = none ∨ ∃ v, path[1]? = some v ∧ 64 ≤ v.toNat) → f.other = true) := by
  unfold FilterEntry.familyTest
  rw [← family?_eq_none]
  cases family : family? path with
  | none =>
    refine ⟨fun other => ⟨fun v second small => ?_, fun _ => other⟩, fun ⟨_, other⟩ => other rfl⟩
    exact nomatch family.symm.trans (family?_eq_some (k := ⟨v.toNat, small⟩).2 ⟨v, second, rfl⟩)
  | some k =>
    obtain ⟨v, second, value⟩ := family?_eq_some.1 family
    refine ⟨fun mask => ⟨fun w second' _ => ?_, nofun⟩, fun ⟨mask, _⟩ => ?_⟩
    · obtain rfl : v = w := Option.some.inj (second.symm.trans second')
      rw [value]; exact mask
    · have set := mask v second (value ▸ k.isLt)
      rw [value] at set
      exact set

/-- A value is permitted when its PERMIT word has its place clear (R94). -/
theorem permitMark_eq_false (b : Bank) (set : BitVec 2) (v : NameVal) :
    b.permitMark set v = false ↔
      ∀ w, b.permit[set.toNat * 256 + v.toNat / 16]? = some w → w.getLsbD (v.toNat % 16) = false := by
  unfold Bank.permitMark
  cases b.permit[set.toNat * 256 + v.toNat / 16]? with
  | none => exact iff_of_true (BitVec.getLsbD_zero) nofun
  | some w => exact ⟨fun mark u same => Option.some.inj same ▸ mark, fun mark => mark w rfl⟩

/-- The level test by the value at level F, or for a path that does not reach it (R93). -/
theorem levelTest_iff (b : Bank) (set : BitVec 2) {path : Path} (long : path ≠ []) :
    b.levelTest set path = true ↔
      (path.length < b.filter[set.toFin].level.toNat → b.filter[set.toFin].refuseShallow = false) ∧
      (∀ v, b.filter[set.toFin].level.toNat ≤ path.length →
        path[b.filter[set.toFin].level.toNat - 1]? = some v →
        v.toNat < b.filter[set.toFin].limit.toNat ∧
        ∀ w, b.permit[set.toNat * 256 + v.toNat / 16]? = some w → w.getLsbD (v.toNat % 16) = false) := by
  unfold Bank.levelTest
  dsimp only
  have some : 0 < path.length := List.length_pos_iff.2 long
  split_ifs with deep
  · have at' : path[b.filter[set.toFin].level.toNat - 1]? =
        Option.some (path.getD (b.filter[set.toFin].level.toNat - 1) 0) := by
      rw [List.getD_eq_getElem?_getD, List.getElem?_eq_getElem (by omega)]
      rfl
    rw [Bool.and_eq_true, decide_eq_true_iff, Bool.not_eq_true', permitMark_eq_false]
    constructor
    · exact fun test => ⟨fun shallow => absurd deep (Nat.not_le.2 shallow), fun v _ value =>
        Option.some.inj (at'.symm.trans value) ▸ test⟩
    · exact fun ⟨_, test⟩ => test _ deep at'
  · rw [Bool.not_eq_true']
    exact ⟨fun refuses => ⟨fun _ => refuses, fun _ reach => absurd reach deep⟩, fun ⟨refuses, _⟩ =>
      refuses (Nat.not_le.1 deep)⟩

/-- Settles O33, by the two tests of R92 and R93, the family of the path, and the entry's own filter. -/
theorem filterSetJudgesAPath : Obligations.FilterSetJudgesAPath := by
  unfold Obligations.FilterSetJudgesAPath
  refine ⟨fun b set path long => ?_, fun b path => ⟨fun v k second value => ?_, fun other => ?_⟩,
    fun b set table i => ⟨fun empty => ?_, fun e m k entry menu => ?_, fun e path sample entry pick has => ?_⟩⟩
  · unfold Bank.passes
    rw [Bool.and_eq_true, familyTest_iff, levelTest_iff b set long]
    exact and_assoc
  · unfold Bank.classOf
    rw [family?_eq_some.2 ⟨v, second, value⟩]
  · unfold Bank.classOf
    rw [family?_eq_none.2 other]
  · rw [recheckTable_get, empty]; rfl
  · rw [recheckTable_get, entry]
    exact Option.filter_some_pos (by rw [menu])
  · rw [recheckTable_get, entry]
    split_ifs with passes
    · exact Option.filter_some_pos (by rw [pick, has]; exact passes)
    · exact Option.filter_some_neg (by rw [pick, has]; exact Bool.eq_false_iff.2 passes)

/-! ## The winner of a table, and the close call (R76, R77) -/

/-- The candidate that goes before every other wins, and the runner-up is the first of the others. -/
theorem State.Wins.winner {s : State} {c : PenChannel} {i : Fin 4} {w : Candidate} {close : Bool}
    (wins : s.Wins c i w close) :
    c.winner s.active = some w ∧ closeCall w (c.runnerUp s.active w) = close := by
  obtain ⟨entry, first, isClose⟩ := wins
  obtain ⟨pre, post, split, before, after⟩ := c.candidates_around entry
  have lower : ∀ d ∈ pre, keysLess (d.keys s.active) (w.keys s.active) = true ∧ d ≠ w := fun d hd => by
    obtain ⟨j, below, valid⟩ := (before d).1 hd
    obtain ⟨goes, ne⟩ := first j d (Fin.ne_of_lt below) valid
    exact ⟨((goesBefore_iff ..).1 goes).resolve_right fun ⟨_, above⟩ => absurd above (Nat.lt_asymm below), ne⟩
  have higher : ∀ d ∈ post, keysLess (d.keys s.active) (w.keys s.active) = true ∨ d.keys s.active = w.keys s.active :=
    fun d hd => by
      obtain ⟨j, above, valid⟩ := (after d).1 hd
      exact ((goesBefore_iff ..).1 (first j d (Fin.ne_of_gt above) valid).1).imp id And.left
  have others (d : Candidate) : d ∈ pre ++ post ↔ ∃ k : Fin 4, k ≠ i ∧ c.table[k] = some d := by
    rw [List.mem_append, before, after]
    constructor
    · rintro (⟨j, below, valid⟩ | ⟨j, above, valid⟩)
      · exact ⟨j, Fin.ne_of_lt below, valid⟩
      · exact ⟨j, Fin.ne_of_gt above, valid⟩
    · rintro ⟨j, other, valid⟩
      exact (Fin.lt_or_lt_of_ne other).imp (fun below => ⟨j, below, valid⟩) fun above => ⟨j, above, valid⟩
  have rest : c.candidates.erase w = pre ++ post := by
    rw [split, List.erase_append_right _ fun mem => (lower w mem).2 rfl, List.erase_cons_head]
  refine ⟨?_, ?_⟩
  · unfold PenChannel.winner
    rw [split]
    exact firstOf_append (fun d hd => (lower d hd).1) higher
  · unfold PenChannel.runnerUp
    rw [rest, Bool.eq_iff_iff, isClose]
    cases runner : firstOf s.active (pre ++ post) with
    | none =>
      refine iff_of_false nofun ?_
      rintro ⟨r, k, other, valid, -⟩
      have mem := (others r).2 ⟨k, other, valid⟩
      rw [firstOf_eq_none runner] at mem
      cases mem
    | some r =>
      obtain ⟨mem, most⟩ := firstOf_mem runner
      obtain ⟨k, other, valid⟩ := (others r).1 mem
      refine decide_eq_true_iff.trans ⟨fun near => ⟨r, k, other, valid, near⟩, ?_⟩
      rintro ⟨q, j, other', valid', near⟩
      exact Nat.le_trans near (Nat.succ_le_succ (most q ((others q).2 ⟨j, other', valid'⟩)))

/-! ## A PICK winner (R77, R78) -/

/-- What a resolution for a PICK winner leaves. -/
theorem resolve_pick {v : View} {k : Resolution} {pass : PassNo} {d : Desk} {w : Candidate} {path : Path}
    (wins : d.chan.winner v.bank = some w) (pick : w.ident = .pick path) :
    resolve v k pass d =
      Desk.offer
        { d with
          chan :=
            { d.chan.emptied with highlight := if (w.cls v.bank).highlight then some path else d.chan.highlight } }
        (.pick (pickReport v.bank pass w path (closeCall w (d.chan.runnerUp v.bank w)) d.chan.crowded))
        (pickSuccessor k (w.cls v.bank) d.chan.tip w) := by
  unfold resolve
  rw [wins]
  dsimp only
  rw [pick]
  dsimp only
  unfold resolvePick
  dsimp only
  cases (w.cls v.bank).highlight <;> rfl

theorem State.putDesk_resolve_pick {s : State} {n : HeadNo} (quiet : s.Quiet n) (k : Resolution) (pass : PassNo)
    {c : PenChannel} {i : Fin 4} {w : Candidate} {close : Bool} {path : Path} (wins : s.Wins c i w close)
    (pick : w.ident = .pick path) :
    s.putDesk n (resolve (s.view n) k pass { s.desk n with chan := c }) =
      s.picks n c pass w path close (pickSuccessor k (w.cls s.active) c.tip w) := by
  obtain ⟨winner, isClose⟩ := wins.winner
  rw [resolve_pick (v := s.view n) (d := { s.desk n with chan := c }) winner pick]
  refine (quiet.offer _ _ _).trans ?_
  unfold State.picks
  rw [← isClose]
  rfl

/-! ## A MENU winner (R79, R106, R107) -/

/-- The successor of a MENU report (R79). -/
def menuSuccessor : Resolution → Successor
  | .passEnd => .held
  | .release => .idle

/-- The MENU report of a choice of a fixed menu (R79). -/
def fixedReport (pass : PassNo) (m : MenuId) (it : ItemNo) (good : Option ItemEntry) (hits : Nat)
    (close crowded : Bool) :
    ChannelReport :=
  .menu { pass := pass, menu := m, item := it, code := good.map (·.code), source := .fixed hits close crowded }

/-- What a good choice of a fixed menu does, and a void one does not (R107). -/
def fixedActed (b : Bank) (d : Desk) (good : Option ItemEntry) : Desk :=
  match good with
  | some i => fixedAction b d i
  | none => d

/-- What a resolution for a MENU winner leaves. -/
theorem resolve_menu {v : View} {k : Resolution} {pass : PassNo} {d : Desk} {w : Candidate} {m : MenuId} {it : ItemNo}
    (wins : d.chan.winner v.bank = some w) (menu : w.ident = .menu m it) :
    resolve v k pass d =
      fixedActed v.bank
        (Desk.offer { d with chan := d.chan.emptied }
          (fixedReport pass m it (v.bank.fixedItem? m it) w.hits
            (closeCall w (d.chan.runnerUp v.bank w)) d.chan.crowded)
          (menuSuccessor k))
        (v.bank.fixedItem? m it) := by
  unfold resolve
  rw [wins]
  dsimp only
  rw [menu]
  dsimp only
  unfold resolveMenu
  cases k <;> rfl

/-- A good choice of a fixed menu, by its tables (R106). -/
theorem fixedItem?_eq_some {b : Bank} {m : MenuId} {k : ItemNo} {it : ItemEntry} :
    b.fixedItem? m k = some it ↔ ∃ e : MenuEntry, b.menu[m.toNat]? = some e ∧ e.kind = 1 ∧
      k.toNat < e.countLess1.toNat + 1 ∧ b.item[e.first.toNat + k.toNat]? = some it ∧ it.enabled = true := by
  unfold Bank.fixedItem? Bank.menu? Bank.item? MenuEntry.count MenuEntry.isFixed
  cases b.menu[m.toNat]? with
  | none => simp
  | some e =>
    simp only [Option.some.injEq, exists_eq_left']
    split_ifs with fixed
    · simp only [Bool.and_eq_true, beq_iff_eq, decide_eq_true_eq] at fixed
      rw [Option.filter_eq_some_iff]
      exact ⟨fun has => ⟨fixed.1, fixed.2, has⟩, fun ⟨_, _, has⟩ => has⟩
    · refine iff_of_false nofun fun ⟨kind, within, _⟩ => fixed ?_
      rw [kind, decide_eq_true within]; rfl

theorem ItemEntry.act_report {it : ItemEntry} (report : it.action = 0 ∨ 5 ≤ it.action.toNat) : it.act = .report := by
  unfold ItemEntry.act
  rcases report with zero | other
  · rw [zero]; rfl
  · split
    case h_5 => rfl
    all_goals omega

theorem ItemEntry.act_one {it : ItemEntry} (one : it.action = 1) : it.act = .reportAndCancel := by
  unfold ItemEntry.act; rw [one]; rfl

theorem ItemEntry.act_two {it : ItemEntry} (two : it.action = 2) : it.act = .setFilter := by
  unfold ItemEntry.act; rw [two]; rfl

theorem ItemEntry.act_three {it : ItemEntry} (three : it.action = 3) : it.act = .togglePattern := by
  unfold ItemEntry.act; rw [three]; rfl

theorem ItemEntry.act_four {it : ItemEntry} (four : it.action = 4) : it.act = .trackHere := by
  unfold ItemEntry.act; rw [four]; rfl

/-- A re-check of an empty table does nothing (R97). -/
theorem recheckTable_empty (b : Bank) (set : BitVec 2) {t : Vector (Option Candidate) 4}
    (empty : ∀ i : Fin 4, t[i] = none) :
    recheckTable b set t = t :=
  vec_ext fun i => by rw [recheckTable_get, empty i]; rfl

section
variable {b : Bank} {d : Desk} {it : ItemEntry}

theorem fixedAction_none (none : it.action = 0 ∨ it.action = 1 ∨ 5 ≤ it.action.toNat) : fixedAction b d it = d := by
  unfold fixedAction
  rcases none with zero | one | other
  · rw [ItemEntry.act_report (.inl zero)]
  · rw [ItemEntry.act_one one]
  · rw [ItemEntry.act_report (.inr other)]

/-- SET-FILTER on a cleared table changes the set alone (R107). -/
theorem fixedAction_setFilter (two : it.action = 2) (empty : d.chan.Empty) :
    fixedAction b d it = { d with chan := { d.chan with filterSet := it.arg.setWidth 2 } } := by
  unfold fixedAction
  rw [ItemEntry.act_two two]
  dsimp only
  unfold PenChannel.setFilter
  rw [recheckTable_empty b _ empty]
  rfl

theorem fixedAction_togglePattern (three : it.action = 3) :
    fixedAction b d it = { d with flags := d.flags.set it.arg.toFin (!d.flags[it.arg.toFin]) } := by
  unfold fixedAction; rw [ItemEntry.act_three three]; rfl

theorem fixedAction_trackHere (four : it.action = 4) : fixedAction b d it = d := by
  unfold fixedAction; rw [ItemEntry.act_four four]

end

/-- A channel replaced once more in a desk that has been put back. -/
theorem State.Quiet.putDesk_withChan {s : State} {n : HeadNo} (quiet : s.Quiet n) (d : Desk) (c : PenChannel) :
    s.putDesk n { d with chan := c } = (s.putDesk n d).withChan n c := by
  rw [quiet.putDesk, quiet.putDesk]
  unfold State.withChan
  dsimp only
  rw [Vector.set_set]

theorem State.putDesk_chan_self (s : State) (n : HeadNo) (d : Desk) : (s.putDesk n d).chans[n] = d.chan :=
  vec_set_self _ _ _

theorem State.putDesk_queue_self (s : State) (n : HeadNo) (d : Desk) : (s.putDesk n d).queues[n] = d.queue :=
  vec_set_self _ _ _

/-- The action after a report offered over an empty table, by its code (R107). -/
theorem State.Quiet.fixedActed {s : State} {n : HeadNo} (quiet : s.Quiet n) (b : Bank) {c : PenChannel}
    (empty : c.Empty)
    (r : ChannelReport) (succ : Successor) (good : Option ItemEntry) :
    let t := s.offers n c r succ
    let v := s.putDesk n (fixedActed b (Desk.offer { s.desk n with chan := c } r succ) good)
    (good = none → v = t) ∧
    (∀ it, good = some it → it.action = 0 ∨ it.action = 1 ∨ 5 ≤ it.action.toNat → v = t) ∧
    (∀ it, good = some it → it.action = 2 → v = t.withChan n { t.chans[n] with filterSet := it.arg.setWidth 2 }) ∧
    (∀ it, good = some it → it.action = 3 →
      v = { t with flags := t.flags.set it.arg.toFin (!t.flags[it.arg.toFin]) }) ∧
    (∀ it, good = some it → it.action = 4 → v = t) := by
  have put := quiet.offer c r succ
  refine ⟨?_, ?_, ?_, ?_, ?_⟩
  · rintro rfl
    exact put
  · rintro it rfl none
    exact (congrArg (s.putDesk n) (fixedAction_none none)).trans put
  · rintro it rfl two
    have left := fixedAction_setFilter (b := b) (d := Desk.offer { s.desk n with chan := c } r succ) two
      (Desk.offer_empty r succ empty)
    refine (congrArg (s.putDesk n) left).trans ?_
    rw [quiet.putDesk_withChan, ← put, State.putDesk_chan_self]
  · rintro it rfl three
    refine (congrArg (s.putDesk n) (fixedAction_togglePattern three)).trans ?_
    rw [← put]
    rfl
  · rintro it rfl four
    exact (congrArg (s.putDesk n) (fixedAction_trackHere four)).trans put

theorem State.putDesk_resolve_menu {s : State} {n : HeadNo} (quiet : s.Quiet n) (k : Resolution) (pass : PassNo)
    {c : PenChannel} {i : Fin 4} {w : Candidate} {close : Bool} {m : MenuId} {it : ItemNo} (wins : s.Wins c i w close)
    (menu : w.ident = .menu m it) :
    s.ChoosesFixed n c pass w m it close (menuSuccessor k)
      (s.putDesk n (resolve (s.view n) k pass { s.desk n with chan := c })) := by
  intro good isGood
  obtain ⟨winner, isClose⟩ := wins.winner
  obtain rfl : good = s.active.fixedItem? m it := Option.ext fun x => (isGood x).trans fixedItem?_eq_some.symm
  obtain ⟨void, none, two, three, -⟩ := quiet.fixedActed s.active (PenChannel.clearTable_empty c)
    (fixedReport pass m it (s.active.fixedItem? m it) w.hits close c.crowded) (menuSuccessor k)
    (s.active.fixedItem? m it)
  have left := resolve_menu (v := s.view n) (k := k) (pass := pass) (d := { s.desk n with chan := c }) winner menu
  dsimp only at left
  rw [show closeCall w (c.runnerUp (s.view n).bank w) = close from isClose] at left
  rw [left]
  exact ⟨void, none, two, three⟩

/-- A table with a valid entry holds a candidate. -/
theorem State.Wins.any {s : State} {c : PenChannel} {i : Fin 4} {w : Candidate} {close : Bool}
    (wins : s.Wins c i w close) : c.anyCandidate = true := by
  refine Bool.of_not_eq_false fun none => ?_
  exact nomatch (PenChannel.anyCandidate_eq_false.1 none i).symm.trans wins.1

/-- Settles O30: a gather with a winner is resolved, for a PICK or a MENU. -/
theorem releaseResolutionReportsTheWinner : Obligations.ReleaseResolutionReportsTheWinner := by
  unfold Obligations.ReleaseResolutionReportsTheWinner
  intro s n i w close tip up gather wins
  have quiet := State.quiet_of_state gather rfl
  have released : s.Wins { s.chans[n] with tip := .up } i w close := wins
  have run : exec (.tipUp n) s = .next (s.putDesk n (resolve (s.view n) .release s.passCount
      { s.desk n with chan := { s.chans[n] with tip := .up } })) := by
    rw [exec_tipUp_down tip, tipUpOffered_gather up gather]
    exact congrArg (Host.Outcome.next <| s.putDesk n ·) (if_pos released.any)
  refine ⟨fun path pick => ?_, fun m k menu => ⟨_, run, ?_⟩⟩
  · rw [run, State.putDesk_resolve_pick quiet .release s.passCount released pick]
    rfl
  · exact State.putDesk_resolve_menu quiet .release s.passCount released menu

end Sys2Proof.Machine
end

section
/-! SUPPORT and PROOFS. The pass-end update of a track (sections 8.2 to 8.4) and the opening of a pop-up
(section 7.3). -/

namespace Sys2Proof.Machine

/-! ## The position after the update (R135) -/

theorem clampCoord_toInt (k : Int) :
    (clampCoord k).toInt = if k < -2048 then -2048 else if 2047 < k then 2047 else k := by
  unfold clampCoord
  rw [BitVec.toInt_ofInt, Int.bmod_eq_of_le (by omega) (by omega)]
  split_ifs <;> omega

/-- A coordinate of the screen stands as it is. -/
theorem clampCoord_self (x : Coord) : clampCoord x.toInt = x := by
  have low : -2048 ≤ x.toInt := BitVec.le_toInt x
  have high : x.toInt < 2048 := BitVec.toInt_lt
  refine BitVec.eq_of_toInt_eq ?_
  rw [clampCoord_toInt]
  split_ifs <;> omega

/-- The motion on one axis by the levels of its two arms. -/
theorem axisMotion_eq (a : Nat) (plus minus : ArmLevel) :
    axisMotion a plus minus =
      if plus = .outer ∧ minus = .none then ((a / 2 : Nat) : Int)
      else if plus = .inner ∧ minus = .none then ((a / 4 : Nat) : Int)
      else if plus = .none ∧ minus = .outer then -((a / 2 : Nat) : Int)
      else if plus = .none ∧ minus = .inner then -((a / 4 : Nat) : Int)
      else 0 := by
  cases plus <;> cases minus <;> rfl

/-- With no arm struck the cross stands. -/
theorem Tracking.moved_still {t : Tracking} (still : t.arms = Arms.empty) (a : Nat) : t.moved a = t.pos := by
  unfold Tracking.moved clampPoint
  rw [still]
  show (⟨clampCoord (t.pos.x.toInt + 0), clampCoord (t.pos.y.toInt + 0)⟩ : Point) = t.pos
  rw [Int.add_zero, Int.add_zero, clampCoord_self, clampCoord_self]

/-! ## The TRACK report (R138, R139) -/

theorem replaceTrack_first (r old : TrackReport) {pre : List ChannelReport} (post : List ChannelReport)
    (others : ∀ x ∈ pre, x.isTrack = false) :
    replaceTrack r (pre ++ .track old :: post) = pre ++ .track r :: post := by
  induction pre with
  | nil => rfl
  | cons x xs ih =>
    have other : x.isTrack = false := others x List.mem_cons_self
    rw [List.cons_append, replaceTrack, other, ih fun y hy => others y (List.mem_cons_of_mem x hy)]
    rfl

section
variable {q : List ChannelReport} (update : Option TrackReport) (r : TrackReport)

theorem offerTrack_room (noTrack : ∀ x ∈ q, x.isTrack = false) (room : q.length < 4) :
    offerTrack q update r = (q ++ [.track r], update) := by
  have none : q.any ChannelReport.isTrack = false := List.any_eq_false.2 fun x hx => Bool.eq_false_iff.1 (noTrack x hx)
  unfold offerTrack
  rw [none]
  exact if_pos room

theorem offerTrack_full (noTrack : ∀ x ∈ q, x.isTrack = false) (full : 4 ≤ q.length) :
    offerTrack q update r = (q, some r) := by
  have none : q.any ChannelReport.isTrack = false := List.any_eq_false.2 fun x hx => Bool.eq_false_iff.1 (noTrack x hx)
  unfold offerTrack
  rw [none]
  exact if_neg (Nat.not_lt.2 full)

theorem offerTrack_replaces {old : TrackReport} {pre post : List ChannelReport} (has : q = pre ++ .track old :: post)
    (others : ∀ x ∈ pre, x.isTrack = false) : offerTrack q update r = (pre ++ .track r :: post, update) := by
  have some : q.any ChannelReport.isTrack = true :=
    List.any_eq_true.2 ⟨.track old, has ▸ List.mem_append_right _ List.mem_cons_self, rfl⟩
  unfold offerTrack
  rw [if_pos some, has, replaceTrack_first r old post others]

end

/-! ## The pass-end update -/

section
variable {v : View} {pass : PassNo} {t : Tracking} {d : Desk}

theorem trackPassEnd_struck (struck : t.arms ≠ Arms.empty) :
    trackPassEnd v pass t d =
      Desk.setState { d with queue := (trackOffered v pass t d.queue).1 }
        (.track
          { t with
            pos := t.moved v.profile.a.toNat, arms := .empty, miss := 0,
            update := (trackOffered v pass t d.queue).2 }) :=
  if_neg struck

theorem trackOffered_still (still : t.arms = Arms.empty) (q : List ChannelReport) :
    trackOffered v pass t q = (q, t.update) := if_pos (t.moved_still still _)

theorem trackPassEnd_missed (still : t.arms = Arms.empty) (few : t.miss + 1 < v.profile.k.toNat) :
    trackPassEnd v pass t d = d.setState (.track { t with miss := t.miss + 1 }) := by
  have whole := (if_pos still : trackPassEnd v pass t d = _).trans (if_neg (Nat.not_le.2 few))
  refine whole.trans ?_
  show Desk.setState { d with queue := (trackOffered v pass t d.queue).1 }
    (.track { t with pos := t.moved _, miss := t.miss + 1, update := (trackOffered v pass t d.queue).2 }) = _
  rw [trackOffered_still still, t.moved_still still]

theorem trackPassEnd_lost (still : t.arms = Arms.empty) (many : v.profile.k.toNat ≤ t.miss + 1) :
    trackPassEnd v pass t d = d.offer (.trackLost t.pos) (byTip d.chan.tip) := by
  have whole := (if_pos still : trackPassEnd v pass t d = _).trans (if_pos many)
  refine whole.trans ?_
  show Desk.offer { d with queue := (trackOffered v pass t d.queue).1 } (.trackLost (t.moved _))
    (heldIfDown d.chan.tip) = _
  rw [trackOffered_still still, t.moved_still still, heldIfDown_eq]

end

theorem passEndNotice_track {pass : PassNo} {v : View} {d : Desk} {t : Tracking} (track : d.chan.state = .track t) :
    passEndNotice pass v d = trackPassEnd v pass t d := by
  unfold passEndNotice; rw [track]

/-- Settles O37, by whether an arm was struck, whether the cross moved, and the misses. -/
theorem passEndUpdatesTheTrack : Obligations.PassEndUpdatesTheTrack := by
  unfold Obligations.PassEndUpdatesTheTrack
  intro s a n t free opened none track step pos beyond r
  have isPos : t.moved s.active.profile[n].a.toNat = pos := by
    unfold Tracking.moved clampPoint
    rw [axisMotion_eq, axisMotion_eq]
  have isReport : trackReport s.active s.passCount t.view pos = r := rfl
  have notice := passEndNotice_track (pass := s.passCount) (v := s.view n) (d := s.desk n) track
  have chan := (s.passEnded_chan n).trans (congrArg Desk.chan notice)
  have queue := (s.passEnded_queue n).trans (congrArg Desk.queue notice)
  refine ⟨s.passEnded, exec_passEnd_noSwitch a free opened none, fun struck => ?_, fun still few => ?_,
    fun still many => ?_⟩
  · have left := trackPassEnd_struck (v := s.view n) (pass := s.passCount) (d := s.desk n) struck
    rw [left] at chan queue
    have moved (other : pos ≠ t.pos) : trackOffered (s.view n) s.passCount t s.queues[n] =
        offerTrack s.queues[n] t.update r := by
      unfold trackOffered
      rw [← isReport, ← isPos]
      exact if_neg (isPos ▸ other)
    refine ⟨(trackOffered (s.view n) s.passCount t s.queues[n]).2, ?_, fun same => ?_, fun other room noTrack => ?_,
      fun other full noTrack => ?_, fun old pre post other has others => ?_⟩
    · rw [chan, ← isPos]; rfl
    · have still : trackOffered (s.view n) s.passCount t s.queues[n] = (s.queues[n], t.update) :=
        if_pos (isPos.trans same)
      exact ⟨queue.trans (congrArg Prod.fst still), congrArg Prod.snd still⟩
    · have appended := (moved other).trans (offerTrack_room t.update r noTrack room)
      exact ⟨queue.trans (congrArg Prod.fst appended), congrArg Prod.snd appended⟩
    · have kept := (moved other).trans (offerTrack_full t.update r noTrack full)
      exact ⟨queue.trans (congrArg Prod.fst kept), congrArg Prod.snd kept⟩
    · have replaced := (moved other).trans (offerTrack_replaces t.update r has others)
      exact ⟨queue.trans (congrArg Prod.fst replaced), congrArg Prod.snd replaced⟩
  · rw [trackPassEnd_missed (v := s.view n) (pass := s.passCount) (d := s.desk n) still few] at chan queue
    exact ⟨chan, queue⟩
  · rw [trackPassEnd_lost (v := s.view n) (pass := s.passCount) (d := s.desk n) still many] at chan queue
    have put := (State.quiet_of_free free.hand n).offer s.chans[n] (.trackLost t.pos) (byTip s.chans[n].tip)
    dsimp only
    rw [← put, State.putDesk_chan_self, State.putDesk_queue_self]
    exact ⟨chan, queue⟩

/-! ## The opening of a pop-up (R108 to R110) -/

theorem clampAnchor_eq (e : MenuEntry) (p : Point) : Machine.clampAnchor e.w e.h p = anchorWithin e p := by
  unfold Machine.clampAnchor anchorWithin
  congr 2
  · split_ifs <;> omega
  · split_ifs <;> omega

/-- A menu of the table clamps the anchor against its extent (R110). -/
theorem Bank.clampAnchor_eq {b : Bank} {m : MenuId} {e : MenuEntry} (menu : b.menu[m.toNat]? = some e) (p : Point) :
    b.clampAnchor m p = anchorWithin e p := by
  unfold Bank.clampAnchor Bank.menu?
  rw [menu]
  exact Machine.clampAnchor_eq e p

theorem exec_buttonPress_same {s : State} {n : HeadNo} (held : s.chans[n].button = .held) :
    exec (.buttonPress n) s = .next s := by
  refine congrArg Host.Outcome.next (State.onDesk_same ?_)
  unfold buttonPress
  rw [show (s.desk n).chan.button = .held from held]

theorem exec_buttonPress_released {s : State} {n : HeadNo} (released : s.chans[n].button = .released) :
    exec (.buttonPress n) s = .next (s.putDesk n (buttonPressOffered (s.view n)
      { s.desk n with chan := { s.chans[n] with button := .held } })) := by
  show Host.Outcome.next (s.onDesk n buttonPress) = _
  unfold State.onDesk buttonPress
  rw [show (s.desk n).chan.button = .released from released]
  rfl

section
variable {v : View} {d : Desk}

theorem buttonPressOffered_opens {saved : Saved} (up : v.port.state = .up) (save : d.chan.state.save? = some saved)
    (named : v.profile.popup ≠ 63) :
    buttonPressOffered v d = d.setState (.popup (openPopup v.bank d.chan v.profile.popup saved)) := by
  have popup : v.profile.popup? = some v.profile.popup := if_neg named
  unfold buttonPressOffered
  rw [up, save, popup]

theorem buttonPressOffered_other
    (other : v.port.state = .down ∨ v.profile.popup? = none ∨ d.chan.state.save? = none) :
    buttonPressOffered v d = d := by
  unfold buttonPressOffered
  split
  · next up save popup =>
    rcases other with down | none | none
    · exact nomatch up.symm.trans down
    · exact nomatch popup.symm.trans none
    · exact nomatch save.symm.trans none
  · rfl

end

/-- Settles O34, by the button's level, the head's state, the profile's pop-up and the channel's state. -/
theorem buttonPressOpensThePopup : Obligations.ButtonPressOpensThePopup := by
  unfold Obligations.ButtonPressOpensThePopup
  refine fun s n => ⟨exec_buttonPress_same, fun released => ⟨fun other => ?_,
    fun e saved from_ up named menu activity => ?_⟩⟩
  · have closed : (s.view n).port.state = .down ∨ (s.view n).profile.popup? = none ∨ s.chans[n].state.save? = none := by
      rcases other with down | noMenu | off | ⟨r, q, wait⟩
      · exact .inl down
      · exact .inr (.inl (if_pos noMenu))
      · exact .inr (.inr (by rw [off]; rfl))
      · exact .inr (.inr (by rw [wait]; rfl))
    rw [exec_buttonPress_released released, buttonPressOffered_other closed]
    exact congrArg Host.Outcome.next (s.putDesk_keepsState n rfl)
  · have saves : s.chans[n].state.save? = some saved ∧ anchorStart s.chans[n] saved = from_ := by
      rcases activity with ⟨state, rfl, rfl⟩ | ⟨state, rfl, rfl⟩ | ⟨state, rfl, rfl⟩ | ⟨t, state, rfl, rfl⟩ <;>
        exact ⟨by rw [state]; rfl, rfl⟩
    obtain ⟨save, start⟩ := saves
    have quiet : s.chans[n].state.isPopup = false := by
      cases state : s.chans[n].state with
      | popup p => rw [state] at save; cases save
      | _ => rfl
    have opened : buttonPressOffered (s.view n) { s.desk n with chan := { s.chans[n] with button := .held } } = _ :=
      buttonPressOffered_opens up save named
    have anchor := (Bank.clampAnchor_eq menu from_).symm
    rw [exec_buttonPress_released released, opened, anchor, ← start]
    exact congrArg Host.Outcome.next (State.Quiet.chan (.inl quiet) _)

end Sys2Proof.Machine
end

section
/-! SUPPORT and PROOFS. Restore, reconciliation and the choice of a pop-up (sections 7.5 and 7.6), in the words of the
statements. -/

namespace Sys2Proof.Machine

/-! ## Reconciliation (R122) -/

section
variable {v : View} {slot : SaveSlot} {d : Desk}

theorem reconcileTip_quiet (quiet : slot.Quiet d.chan.tip) : reconcileTip v slot d = d := by
  obtain ⟨note, notDown⟩ := quiet
  have none : ¬ (d.chan.tip = .down ∧ (slot.note = true ∨ slot.tipAtOpening = .up)) := fun ⟨down, opening⟩ =>
    notDown ⟨down, opening.resolve_left (by rw [note]; decide)⟩
  unfold reconcileTip
  rw [note, if_neg (by decide : ¬ false = true)]
  exact if_neg (note ▸ none)

theorem reconcileTip_up (note : slot.note = true) (up : d.chan.tip = .up) :
    reconcileTip v slot d = tipUpOffered v d := by
  unfold reconcileTip
  rw [if_pos note]
  exact if_neg fun ⟨down, _⟩ => nomatch up.symm.trans down

theorem reconcileTip_down (note : slot.note = false) (opening : slot.tipAtOpening = .up) (down : d.chan.tip = .down) :
    reconcileTip v slot d = tipDownOffered v d := by
  unfold reconcileTip
  rw [if_pos ⟨down, .inr opening⟩, note]
  rfl

theorem reconcileTip_replay (note : slot.note = true) (down : d.chan.tip = .down) :
    reconcileTip v slot d = tipDownOffered v (tipUpOffered v d) := by
  unfold reconcileTip
  rw [if_pos ⟨down, .inl note⟩, if_pos note]

end

/-- A desk put back twice is put back once, where nothing in hand ends. -/
theorem State.Quiet.putDesk_twice {s : State} {n : HeadNo} (quiet : s.Quiet n) {d : Desk}
    (left : d.chan.state.isPopup = false) (e : Desk) : (s.putDesk n d).putDesk n e = s.putDesk n e := by
  have again : (s.putDesk n d).Quiet n := .inl (by rw [s.putDesk_chan_self]; exact left)
  rw [again.putDesk, quiet.putDesk d, quiet.putDesk e]
  dsimp only
  rw [Vector.set_set, Vector.set_set]

theorem State.chans_withChan (s : State) (n : HeadNo) (c : PenChannel) : (s.withChan n c).chans[n] = c :=
  vec_set_self _ _ _

theorem State.withChan_twice (s : State) (n : HeadNo) (c e : PenChannel) :
    (s.withChan n c).withChan n e = s.withChan n e := by
  unfold State.withChan
  dsimp only
  rw [Vector.set_set]

theorem State.view_withChan (s : State) (n : HeadNo) (c : PenChannel) : (s.withChan n c).view n = s.view n := rfl

theorem State.desk_withChan (s : State) (n : HeadNo) (c : PenChannel) :
    (s.withChan n c).desk n = { s.desk n with chan := c } := by
  unfold State.withChan State.desk
  dsimp only
  rw [vec_set_self]

theorem State.desk_putDesk (s : State) (n : HeadNo) (d : Desk) : (s.putDesk n d).desk n = d := by
  unfold State.desk
  rw [s.putDesk_chan_self, s.putDesk_queue_self]
  rfl

/-- A tip event at a channel put in place of one that is not in POPUP. -/
theorem State.exec_tipUp_withChan {b : State} {n : HeadNo} {c : PenChannel} (now : b.chans[n].state.isPopup = false)
    (put : c.state.isPopup = false) (down : c.tip = .down) :
    exec (.tipUp n) (b.withChan n c) =
      .next (b.putDesk n (tipUpOffered (b.view n) { b.desk n with chan := { c with tip := .up } })) := by
  have quiet : b.Quiet n := .inl now
  have self : (b.withChan n c).chans[n] = c := vec_set_self _ _ _
  rw [exec_tipUp_down (self.symm ▸ down), b.view_withChan, b.desk_withChan, self, ← quiet.chan c]
  exact congrArg Host.Outcome.next (quiet.putDesk_twice put _)

theorem State.exec_tipDown_withChan {b : State} {n : HeadNo} {c : PenChannel} (now : b.chans[n].state.isPopup = false)
    (put : c.state.isPopup = false) (up : c.tip = .up) :
    exec (.tipDown n) (b.withChan n c) =
      .next (b.putDesk n (tipDownOffered (b.view n) { b.desk n with chan := { c with tip := .down } })) := by
  have quiet : b.Quiet n := .inl now
  have self : (b.withChan n c).chans[n] = c := vec_set_self _ _ _
  rw [exec_tipDown_up (self.symm ▸ up), b.view_withChan, b.desk_withChan, self, ← quiet.chan c]
  exact congrArg Host.Outcome.next (quiet.putDesk_twice put _)

theorem Desk.withTip_self {d : Desk} {t : Tip} (tip : d.chan.tip = t) : d.withTip t = d := by
  subst tip; rfl

/-- A restored channel, not in POPUP, is reconciled by the tip events of R122. -/
theorem State.reconciled {b : State} {n : HeadNo} (slot : SaveSlot) (restored : b.chans[n].state.isPopup = false) :
    b.Reconciled n slot (b.putDesk n (reconcileTip (b.view n) slot (b.desk n))) := by
  have quiet : b.Quiet n := .inl restored
  refine ⟨fun same => ?_, fun note up => ?_, fun note opening down => ?_, fun note down => ?_⟩
  · rw [reconcileTip_quiet (d := b.desk n) same]
    exact (quiet.chan b.chans[n]).trans (b.withChan_self n)
  · rw [reconcileTip_up (d := b.desk n) note up]
    exact (State.exec_tipUp_withChan restored (c := { b.chans[n] with tip := .down }) restored rfl).trans <| congrArg
      (Host.Outcome.next <| b.putDesk n <| tipUpOffered (b.view n) ·)
      (Desk.withTip_self (d := b.desk n) up)
  · rw [reconcileTip_down (d := b.desk n) note opening down]
    exact (State.exec_tipDown_withChan restored (c := { b.chans[n] with tip := .up }) restored rfl).trans <| congrArg
      (Host.Outcome.next <| b.putDesk n <| tipDownOffered (b.view n) ·)
      (Desk.withTip_self (d := b.desk n) down)
  · have raised : tipUpOffered (b.view n) ((b.desk n).withTip .up) = (tipUpOffered (b.view n) (b.desk n)).withTip .up :=
      tipUpOffered_withTip _ _ _
    have lowered : (tipUpOffered (b.view n) (b.desk n)).chan.tip = .down := (tipUpOffered_tip _ _).trans down
    have left := b.desk_putDesk n (tipUpOffered (b.view n) ((b.desk n).withTip .up))
    have notPopup : (tipUpOffered (b.view n) ((b.desk n).withTip .up)).chan.state.isPopup = false :=
      tipUpOffered_isPopup restored
    have chan := congrArg Desk.chan left
    refine ⟨_, exec_tipUp_down down, ?_⟩
    show exec (.tipDown n) (b.putDesk n (tipUpOffered (b.view n) ((b.desk n).withTip .up))) = _
    rw [exec_tipDown_up (by rw [b.putDesk_chan_self, raised]; rfl), left, b.putDesk_chan_self,
      reconcileTip_replay (d := b.desk n) note down]
    refine congrArg Host.Outcome.next
      ((quiet.putDesk_twice notPopup _).trans ?_)
    refine congrArg (b.putDesk n <| tipDownOffered (b.view n) ·) ?_
    show Desk.withTip (tipUpOffered (b.view n) ((b.desk n).withTip .up)) .down = _
    rw [raised]
    exact Desk.withTip_self (d := tipUpOffered (b.view n) (b.desk n)) lowered

/-! ## Restore (R121) and the choice (R118 to R120) -/

/-- A restore in a desk that has been put back, with its reconciliation. -/
theorem State.Quiet.restored {s : State} {n : HeadNo} (quiet : s.Quiet n) (p : Popup) (c : PenChannel)
    (q : List ChannelReport) (flags : Vector Bool 16) :
    State.Reconciled { (s.withQueue n q).withChan n (c.restored p) with flags := flags } n p.slot
      (s.putDesk n (restore (s.view n) p ⟨c, q, flags⟩)) := by
  have start : s.putDesk n ⟨c.restored p, q, flags⟩ =
      { (s.withQueue n q).withChan n (c.restored p) with flags := flags } := quiet.putDesk _
  have notPopup : (c.restored p).state.isPopup = false := by
    show p.slot.state.resumed.isPopup = false
    cases p.slot.state <;> rfl
  have left := State.reconciled (b := s.putDesk n ⟨c.restored p, q, flags⟩) (n := n) p.slot
    (by rw [s.putDesk_chan_self]; exact notPopup)
  have whole : restore (s.view n) p ⟨c, q, flags⟩ = reconcileTip (s.view n) p.slot ⟨c.restored p, q, flags⟩ := by
    unfold restore PenChannel.restored
    rw [Saved.restore_eq]
  have view : (s.putDesk n ⟨c.restored p, q, flags⟩).view n = s.view n := rfl
  rw [s.desk_putDesk, view, quiet.putDesk_twice notPopup, ← whole, start] at left
  exact left

/-- A good choice of a pop-up, by its tables (R119). -/
theorem popupItem?_eq_some {b : Bank} {m : MenuId} {k : ItemNo} {it : ItemEntry} :
    b.popupItem? m k = some it ↔ ∃ e : MenuEntry, b.menu[m.toNat]? = some e ∧
      k.toNat < e.countLess1.toNat + 1 ∧ b.item[e.first.toNat + k.toNat]? = some it ∧ it.enabled = true := by
  unfold Bank.popupItem? Bank.menu? Bank.item? MenuEntry.count
  cases b.menu[m.toNat]? with
  | none => simp
  | some e =>
    simp only [Option.some.injEq, exists_eq_left']
    split_ifs with within
    · rw [Option.filter_eq_some_iff]
      exact ⟨fun has => ⟨within, has⟩, fun ⟨_, has⟩ => has⟩
    · exact iff_of_false nofun fun ⟨inside, _⟩ => within inside

/-- The MENU report of a choice of a pop-up (R118). -/
def popupReport (pass : PassNo) (p : Popup) (k : Fin 32) (good : Option ItemEntry) : ChannelReport :=
  .menu { pass := pass, menu := p.menu, item := BitVec.ofFin k, code := good.map (·.code), source := .popup }

theorem makeChoice_room {v : View} {p : Popup} {d : Desk} {k : Fin 32} (pass : PassNo) (chooses : p.Chooses k)
    (room : d.queue.length < 4) :
    makeChoice v pass p d =
      choiceAppended v p
        { d with queue := d.queue ++ [popupReport pass p k (v.bank.popupItem? p.menu (BitVec.ofFin k))] }
        (v.bank.popupItem? p.menu (BitVec.ofFin k)) := by
  obtain ⟨some, most, lowest⟩ := chooses
  unfold makeChoice
  rw [p.chosen_eq k some most lowest]
  exact if_pos (decide_eq_true room)

theorem makeChoice_full {v : View} {p : Popup} {d : Desk} {k : Fin 32} (pass : PassNo) (chooses : p.Chooses k)
    (full : ¬ d.queue.length < 4) :
    makeChoice v pass p d =
      fixedActed v.bank
        (Desk.offer { d with chan := d.chan.emptied }
          (popupReport pass p k (v.bank.popupItem? p.menu (BitVec.ofFin k)))
          (fullSuccessor v p d.chan.tip (v.bank.popupItem? p.menu (BitVec.ofFin k))))
        (v.bank.popupItem? p.menu (BitVec.ofFin k)) := by
  obtain ⟨some, most, lowest⟩ := chooses
  unfold makeChoice
  rw [p.chosen_eq k some most lowest, Desk.offer_full (d := { d with chan := d.chan.emptied }) _ _ full]
  refine (if_neg (Bool.eq_false_iff.1 (decide_eq_false full))).trans ?_
  cases v.bank.popupItem? p.menu (BitVec.ofFin k) <;> rfl

theorem ItemEntry.action_of_trackHere {it : ItemEntry} (here : it.act = .trackHere) : it.action = 4 := by
  unfold ItemEntry.act at here
  split at here
  case h_4 four => exact BitVec.eq_of_toNat_eq four
  all_goals cases here

theorem fullSuccessor_byTip {v : View} {p : Popup} {tip : Tip} {it : ItemEntry} (other : it.action ≠ 4) :
    fullSuccessor v p tip (some it) = byTip tip := by
  rw [← heldIfDown_eq]
  unfold fullSuccessor
  dsimp only
  cases act : it.act with
  | trackHere => exact absurd (ItemEntry.action_of_trackHere act) other
  | _ => rfl

theorem fullSuccessor_track {v : View} {p : Popup} {tip : Tip} {it : ItemEntry} (four : it.action = 4) :
    fullSuccessor v p tip (some it) = .track p.anchor (v.profile.view.setWidth 12) := by
  unfold fullSuccessor
  dsimp only
  rw [ItemEntry.act_four four]

/-! The action of a good choice whose report was appended, by its code (R120). -/

section
variable {v : View} {p : Popup} {d : Desk} {it : ItemEntry}

theorem choiceAppended_report (report : it.action = 0 ∨ 5 ≤ it.action.toNat) :
    choiceAppended v p d (some it) = restore v p d := by
  unfold choiceAppended
  dsimp only
  rw [ItemEntry.act_report report]

theorem choiceAppended_reportAndCancel (one : it.action = 1) :
    choiceAppended v p d (some it) =
      { d with chan := { d.chan.emptied with state := (byTip d.chan.tip).entered } } := by
  rw [← heldIfDown_eq, ← Successor.enter_eq]
  unfold choiceAppended
  dsimp only
  rw [ItemEntry.act_one one]
  rfl

theorem choiceAppended_setFilter (two : it.action = 2) :
    choiceAppended v p d (some it) =
      restore v p { d with chan := d.chan.setFilter v.bank (it.arg.setWidth 2) } := by
  unfold choiceAppended
  dsimp only
  rw [ItemEntry.act_two two]
  rfl

theorem choiceAppended_togglePattern (three : it.action = 3) :
    choiceAppended v p d (some it) =
      restore v p { d with flags := d.flags.set it.arg.toFin (!d.flags[it.arg.toFin]) } := by
  unfold choiceAppended
  dsimp only
  rw [ItemEntry.act_three three]
  rfl

theorem choiceAppended_trackHere (four : it.action = 4) :
    choiceAppended v p d (some it) =
      { d with
        chan := { d.chan.emptied with state := .track (.start p.anchor (v.profile.view.setWidth 12)) } } := by
  unfold choiceAppended
  dsimp only
  rw [ItemEntry.act_four four]
  rfl

end

/-- The action after a report that was appended, in a desk that is put back (R120). -/
theorem State.Quiet.choiceAppended {s : State} {n : HeadNo} (quiet : s.Quiet n) (p : Popup) (c : PenChannel)
    (q : List ChannelReport) (good : Option ItemEntry) :
    let t := s.withQueue n q
    let v := s.putDesk n (choiceAppended (s.view n) p ⟨c, q, s.flags⟩ good)
    (good = none → (t.withChan n (c.restored p)).Reconciled n p.slot v) ∧
    (∀ it, good = some it → it.action = 0 ∨ 5 ≤ it.action.toNat →
      (t.withChan n (c.restored p)).Reconciled n p.slot v) ∧
    (∀ it, good = some it → it.action = 1 → v = t.withChan n { c.emptied with state := (byTip c.tip).entered }) ∧
    (∀ it, good = some it → it.action = 2 →
      (t.withChan n
        { c.restored p with
          filterSet := it.arg.setWidth 2,
          table := recheckTable s.active (it.arg.setWidth 2) c.table }).Reconciled n p.slot v) ∧
    (∀ it, good = some it → it.action = 3 →
      State.Reconciled
        { t.withChan n (c.restored p) with flags := s.flags.set it.arg.toFin (!s.flags[it.arg.toFin]) }
        n p.slot v) ∧
    (∀ it, good = some it → it.action = 4 →
      v = t.withChan n
        { c.emptied with
          state := .track
            { pos := p.anchor, arms := ⟨.none, .none, .none, .none⟩, miss := 0,
              view := s.active.profile[n].view.setWidth 12, update := none } }) := by
  refine ⟨?_, ?_, ?_, ?_, ?_, ?_⟩
  · rintro rfl
    exact quiet.restored p c q s.flags
  · rintro it rfl report
    rw [choiceAppended_report report]
    exact quiet.restored p c q s.flags
  · rintro it rfl one
    exact (congrArg (s.putDesk n) (choiceAppended_reportAndCancel one)).trans (quiet.putDesk _)
  · rintro it rfl two
    dsimp only
    rw [choiceAppended_setFilter two]
    exact quiet.restored p (c.setFilter s.active (it.arg.setWidth 2)) q s.flags
  · rintro it rfl three
    dsimp only
    rw [choiceAppended_togglePattern three]
    exact quiet.restored p c q _
  · rintro it rfl four
    exact (congrArg (s.putDesk n) (choiceAppended_trackHere four)).trans (quiet.putDesk _)

/-- The action after a report that found no room, by its code (R119). -/
theorem State.Quiet.choiceHeld {s : State} {n : HeadNo} (quiet : s.Quiet n) (p : Popup) (c : PenChannel)
    (full : 4 ≤ s.queues[n].length) (r : ChannelReport) (good : Option ItemEntry) :
    let v := s.putDesk n (Machine.fixedActed s.active
      (Desk.offer { s.desk n with chan := c.emptied } r (fullSuccessor (s.view n) p c.tip good)) good)
    let waiting (succ : Successor) : PenChannel := { c.emptied with state := .wait r succ }
    (good = none → v = s.withChan n (waiting (byTip c.tip))) ∧
    (∀ it, good = some it → it.action = 0 ∨ it.action = 1 ∨ 5 ≤ it.action.toNat →
      v = s.withChan n (waiting (byTip c.tip))) ∧
    (∀ it, good = some it → it.action = 2 →
      v = s.withChan n { waiting (byTip c.tip) with filterSet := it.arg.setWidth 2 }) ∧
    (∀ it, good = some it → it.action = 3 →
      v = { s.withChan n (waiting (byTip c.tip)) with
            flags := s.flags.set it.arg.toFin (!s.flags[it.arg.toFin]) }) ∧
    (∀ it, good = some it → it.action = 4 →
      v = s.withChan n (waiting (.track p.anchor (s.active.profile[n].view.setWidth 12)))) := by
  have empty : c.emptied.Empty := PenChannel.clearTable_empty c
  obtain ⟨void, none, two, three, four⟩ := quiet.fixedActed s.active empty r
    (fullSuccessor (s.view n) p c.tip good) good
  have offers (succ : Successor) :
      s.offers n c.emptied r succ = s.withChan n { c.emptied with state := .wait r succ } :=
    if_neg (Nat.not_lt.2 full)
  have offered {succ : Successor} (same : fullSuccessor (s.view n) p c.tip good = succ) :
      s.offers n c.emptied r (fullSuccessor (s.view n) p c.tip good) =
        s.withChan n { c.emptied with state := .wait r succ } := same ▸ offers _
  refine ⟨fun isVoid => ?_, fun it isGood action => ?_, fun it isGood action => ?_, fun it isGood action => ?_,
    fun it isGood action => ?_⟩
  · exact (void isVoid).trans (offered (isVoid ▸ heldIfDown_eq _))
  · have other : it.action ≠ 4 := fun four => by
      rw [four] at action
      revert action
      decide
    exact (none it isGood action).trans (offered (by rw [isGood]; exact fullSuccessor_byTip other))
  · have other : it.action ≠ 4 := by rw [action]; decide
    have left := offered (isGood ▸ fullSuccessor_byTip other)
    refine (two it isGood action).trans ?_
    rw [left, State.chans_withChan, State.withChan_twice]
  · have other : it.action ≠ 4 := by rw [action]; decide
    have left := offered (isGood ▸ fullSuccessor_byTip other)
    refine (three it isGood action).trans ?_
    rw [left]
    rfl
  · exact (four it isGood action).trans (offered (by rw [isGood]; exact fullSuccessor_track action))

/-- What a choice leaves in a desk that is put back. -/
theorem State.Quiet.chooses {s : State} {n : HeadNo} (quiet : s.Quiet n) {p : Popup} {k : Fin 32} (pass : PassNo)
    (chooses : p.Chooses k) (c : PenChannel) :
    s.ChoosesPopup n c p k pass (s.putDesk n (makeChoice (s.view n) pass p { s.desk n with chan := c })) := by
  intro good isGood
  obtain rfl : good = s.active.popupItem? p.menu (BitVec.ofFin k) :=
    Option.ext fun x => (isGood x).trans popupItem?_eq_some.symm
  refine ⟨fun room => ?_, fun full => ?_⟩
  · rw [makeChoice_room (v := s.view n) (d := { s.desk n with chan := c }) pass chooses room]
    exact quiet.choiceAppended p c _ _
  · rw [makeChoice_full (v := s.view n) (d := { s.desk n with chan := c }) pass chooses (Nat.not_lt.2 full)]
    exact quiet.choiceHeld p c full _ _

end Sys2Proof.Machine
end

section
/-! SUPPORT and PROOFS. The release of the button (sections 7.5 and 7.7): a cancel, a choice, and what is left in
hand. -/

namespace Sys2Proof.Machine

/-! ## BUTTON-RELEASE -/

section
variable {v : View} {d : Desk}

theorem buttonReleaseOffered_other (other : v.port.state = .down ∨ ∀ p, d.chan.state ≠ .popup p) :
    buttonReleaseOffered v d = d := by
  unfold buttonReleaseOffered
  split
  · next p up popup =>
    rcases other with down | none
    · exact nomatch up.symm.trans down
    · exact absurd popup (none p)
  · rfl

theorem buttonReleaseOffered_cancels {p : Popup} (up : v.port.state = .up) (popup : d.chan.state = .popup p)
    (empty : ∀ k : Fin 32, p.tally[k] = 0) : buttonReleaseOffered v d = restore v p d := by
  have none : ¬ p.tallied = true := fun some =>
    have ⟨k, positive⟩ := p.tallied_iff.1 some
    Nat.ne_of_gt positive (empty k)
  unfold buttonReleaseOffered
  rw [up, popup]
  exact if_neg none

theorem buttonReleaseOffered_chooses {p : Popup} {k : Fin 32} (up : v.port.state = .up)
    (popup : d.chan.state = .popup p)
    (chooses : p.Chooses k) : buttonReleaseOffered v d = makeChoice v v.pass p d := by
  unfold buttonReleaseOffered
  rw [up, popup]
  exact if_pos (p.tallied_iff.2 ⟨k, chooses.1⟩)

end

theorem exec_buttonRelease_released {s : State} {n : HeadNo} (ok : s.InputOk)
    (released : s.chans[n].button = .released) :
    exec (.buttonRelease n) s = .next s := by
  have same : s.onDesk n buttonRelease = s := State.onDesk_same (by
    unfold buttonRelease
    rw [show (s.desk n).chan.button = .released from released])
  show Host.Outcome.next (s.onDesk n buttonRelease).settle = _
  rw [same, State.settle_ok ok]

theorem State.onDesk_buttonRelease {s : State} {n : HeadNo} (held : s.chans[n].button = .held) :
    s.onDesk n buttonRelease = s.putDesk n (buttonReleaseOffered (s.view n)
      { s.desk n with chan := { s.chans[n] with button := .released } }) := by
  unfold State.onDesk buttonRelease
  rw [show (s.desk n).chan.button = .held from held]
  rfl

/-- A record in hand that is no delivery keeps no delivery of a pop-up region. -/
theorem State.NoDelivery.quiet {s : State} (none : s.NoDelivery) (n : HeadNo) : s.Quiet n := by
  obtain ⟨-, noDelivery⟩ := none
  cases hand : s.inHand with
  | none => exact State.quiet_of_free hand n
  | some x => cases x with
    | deliver r w => exact absurd hand (noDelivery r w)
    | directive h d => exact .inr (by rw [hand]; rfl)

/-- A desk put back while no delivery is in hand leaves the input as it was. -/
theorem State.NoDelivery.settle_putDesk {s : State} (none : s.NoDelivery) (n : HeadNo) (d : Desk) :
    (s.putDesk n d).settle = s.putDesk n d := by
  refine State.settle_ok (none.1.congr ?_ rfl rfl)
  rw [(none.quiet n).putDesk]

theorem State.withQueue_self (s : State) (n : HeadNo) : s.withQueue n s.queues[n] = s := by
  have same : s.queues.set n s.queues[n] = s.queues := Vector.set_getElem_self n.isLt
  unfold State.withQueue
  rw [same]

/-! ## What is left in hand (R113) -/

/-- What is left in hand of a record when only the deliveries to head `n` that `keep` accepts are kept. -/
def handKeeping (n : HeadNo) (r : Record) (w : Vector (List Prepared) 4) (keep : Prepared → Bool) : Option InHand :=
  let left := w.set n (w[n].filter keep)
  if ∀ m : HeadNo, left[m] = [] then none else some (.deliver r left)

theorem handWithoutPopup_eq (n : HeadNo) (r : Record) (w : Vector (List Prepared) 4) :
    handWithoutPopup n r w = handKeeping n r w fun p => !p.snap.popup := by
  refine congrArg (handKeeping n r w) (funext fun p => ?_)
  cases p.snap with
  | menu id kind item => cases kind <;> rfl
  | _ => rfl

/-- A desk that leaves POPUP put back over a delivery: what waits of the pop-up region ends. -/
theorem State.settle_delivering {s : State} (n : HeadNo) {d : Desk}
    (popup : s.chans[n].state.isPopup = true) (left : d.chan.state.isPopup = false) (empty : s.offered = [])
    (r : Record) (w : Vector (List Prepared) 4) :
    (State.putDesk { s with inHand := some (.deliver r w) } n d).settle =
      { s.putDesk n d with inHand := handWithoutPopup n r w } := by
  have put : State.putDesk { s with inHand := some (.deliver r w) } n d =
      { s.putDesk n d with
        inHand := some (.deliver r (w.set n (w[n].filter fun p => !p.snap.popup))) } := by
    unfold State.putDesk
    dsimp only
    rw [popup, left]
    rfl
  rw [put, State.settle_nothing (s := { s.putDesk n d with inHand := some _ }) empty, State.closeHand_deliver rfl,
    handWithoutPopup_eq]
  rfl

/-- A release of the button in POPUP with the head UP, with and without a delivery in hand. -/
theorem State.NoDelivery.exec_buttonRelease {s : State} {n : HeadNo} {p : Popup} (none : s.NoDelivery)
    (held : s.chans[n].button = .held) (popup : s.chans[n].state = .popup p) {d : Desk}
    (offered : buttonReleaseOffered (s.view n) { s.desk n with chan := { s.chans[n] with button := .released } } = d)
    (left : d.chan.state.isPopup = false) :
    exec (.buttonRelease n) s = .next (s.putDesk n d) ∧
    (s.offered = [] → ∀ r w, exec (.buttonRelease n) { s with inHand := some (.deliver r w) } =
      .next { s.putDesk n d with inHand := handWithoutPopup n r w }) := by
  subst offered
  refine ⟨?_, fun empty r w => ?_⟩
  · show Host.Outcome.next (s.onDesk n buttonRelease).settle = _
    rw [State.onDesk_buttonRelease held, none.settle_putDesk]
  · have popups : s.chans[n].state.isPopup = true := by rw [popup]; rfl
    rw [← State.settle_delivering n popups left empty r w]
    exact congrArg (Host.Outcome.next ∘ State.settle)
      (State.onDesk_buttonRelease (s := { s with inHand := some (.deliver r w) }) held)

/-- Settles O35, by the button's level, the head's state and the channel's. -/
theorem buttonReleaseCancelsAnEmptyPopup : Obligations.ButtonReleaseCancelsAnEmptyPopup := by
  unfold Obligations.ButtonReleaseCancelsAnEmptyPopup
  refine ⟨fun s n ok => ⟨exec_buttonRelease_released ok, fun held other => ?_⟩,
    fun s n p none held up popup empty => ?_⟩
  · show Host.Outcome.next (s.onDesk n buttonRelease).settle = _
    have kept : s.onDesk n buttonRelease = s.withChan n { s.chans[n] with button := .released } := by
      rw [State.onDesk_buttonRelease held, buttonReleaseOffered_other other]
      exact s.putDesk_keepsState n rfl
    rw [kept]
    exact congrArg Host.Outcome.next (State.settle_ok (ok.congr rfl rfl rfl))
  · obtain ⟨run, delivering⟩ := none.exec_buttonRelease held popup
      (buttonReleaseOffered_cancels up popup empty) (restore_isPopup _ _ _)
    refine ⟨_, run, ?_, delivering⟩
    have left := (none.quiet n).restored p { s.chans[n] with button := .released } s.queues[n] s.flags
    rw [s.withQueue_self] at left
    exact left

/-- Settles O36: the choice of the item the tally chooses. -/
theorem buttonReleaseMakesTheChoice : Obligations.ButtonReleaseMakesTheChoice := by
  unfold Obligations.ButtonReleaseMakesTheChoice
  intro s n p k none held up popup chooses
  obtain ⟨run, delivering⟩ := none.exec_buttonRelease held popup
    (buttonReleaseOffered_chooses up popup chooses) (makeChoice_isPopup _ _ _ _)
  exact ⟨_, run, (none.quiet n).chooses s.passCount chooses _, delivering⟩

end Sys2Proof.Machine
end

section
/-! SUPPORT and PROOFS. The pass-end notice in GATHER and in POPUP (sections 5.4 and 7.4). -/

namespace Sys2Proof.Machine

/-! ## One channel's part of the end of a pass -/

/-- Of a walk through the heads in which only head `n` does something, that is left. -/
theorem allHeads_foldl_only {α : Type} {g : α → HeadNo → α} {n : HeadNo} (others : ∀ m, m ≠ n → ∀ x, g x m = x)
    (x : α) :
    allHeads.foldl g x = g x n := by
  show g (g (g (g x 0) 1) 2) 3 = g x n
  fin_cases n
  · rw [others 3 (by decide), others 2 (by decide), others 1 (by decide)]; rfl
  · rw [others 3 (by decide), others 2 (by decide), others 0 (by decide)]; rfl
  · rw [others 3 (by decide), others 1 (by decide), others 0 (by decide)]; rfl
  · rw [others 2 (by decide), others 1 (by decide), others 0 (by decide)]; rfl

theorem Desk.offer_flags (d : Desk) (r : ChannelReport) (succ : Successor) : (d.offer r succ).flags = d.flags := by
  unfold Desk.offer
  split_ifs <;> rfl

theorem trackPassEnd_flags (v : View) (pass : PassNo) (t : Tracking) (d : Desk) :
    (trackPassEnd v pass t d).flags = d.flags := by
  by_cases still : t.arms = Arms.empty
  · rcases Nat.lt_or_ge (t.miss + 1) v.profile.k.toNat with few | many
    · rw [trackPassEnd_missed still few]; rfl
    · rw [trackPassEnd_lost still many]; exact Desk.offer_flags ..
  · rw [trackPassEnd_struck still]; rfl

/-- Outside GATHER and POPUP the notice keeps the live flags. -/
theorem passEndNotice_flags (pass : PassNo) (v : View) {d : Desk} (notGather : d.chan.state ≠ .gather)
    (notPopup : ∀ p, d.chan.state ≠ .popup p) : (passEndNotice pass v d).flags = d.flags := by
  unfold passEndNotice
  cases state : d.chan.state with
  | gather => exact absurd state notGather
  | popup p => exact absurd state (notPopup p)
  | track t => exact trackPassEnd_flags ..
  | _ => rfl

/-- The end of a pass in the words of one channel's desk. -/
theorem State.passEnded_of_notice {s : State} {n : HeadNo} {d : Desk}
    (notice : passEndNotice s.passCount (s.view n) (s.desk n) = d) :
    s.passEnded.chans[n] = (s.putDesk n d).chans[n] ∧ s.passEnded.queues[n] = (s.putDesk n d).queues[n] ∧
      (s.OthersKeepFlags n → s.passEnded.flags = (s.putDesk n d).flags) := by
  rw [s.putDesk_chan_self, s.putDesk_queue_self, s.passEnded_chan, s.passEnded_queue, notice]
  refine ⟨rfl, rfl, fun others => ?_⟩
  have kept (m : HeadNo) (other : m ≠ n) (f : Vector Bool 16) :
      (passEndNotice s.passCount (s.view m) { s.desk m with flags := f }).flags = f :=
    passEndNotice_flags _ _ (others m other).1 (others m other).2
  have only := allHeads_foldl_only kept s.flags
  have whole : s.passEnded.flags = (passEndNotice s.passCount (s.view n) (s.desk n)).flags := only
  rw [whole, notice]
  rfl

/-! ## GATHER (R74) -/

section
variable {v : View} {pass : PassNo} {d : Desk}

theorem passEndNotice_gather (gather : d.chan.state = .gather) : passEndNotice pass v d = gatherPassEnd v pass d := by
  unfold passEndNotice; rw [gather]

theorem gatherPassEnd_empty (empty : d.chan.Empty) : gatherPassEnd v pass d = d := by
  unfold gatherPassEnd
  rw [PenChannel.anyCandidate_eq_false.2 empty]
  rfl

theorem gatherPassEnd_counts (some : d.chan.anyCandidate = true) (below : d.chan.gather + 1 < v.profile.g.toNat) :
    gatherPassEnd v pass d = { d with chan := { d.chan with gather := d.chan.gather + 1 } } :=
  (if_pos some).trans (if_neg (Nat.not_le.2 below))

theorem gatherPassEnd_resolves (some : d.chan.anyCandidate = true) (reached : v.profile.g.toNat ≤ d.chan.gather + 1) :
    gatherPassEnd v pass d =
      resolve v .passEnd pass { d with chan := { d.chan with gather := d.chan.gather + 1 } } :=
  (if_pos some).trans (if_pos reached)

/-! ## POPUP (R117) -/

theorem passEndNotice_popup {p : Popup} (popup : d.chan.state = .popup p) :
    passEndNotice pass v d = popupPassEnd v pass p d := by
  unfold passEndNotice; rw [popup]

theorem popupPassEnd_empty {p : Popup} (empty : ∀ k : Fin 32, p.tally[k] = 0) : popupPassEnd v pass p d = d :=
  if_neg fun some =>
    have ⟨k, positive⟩ := p.tallied_iff.1 some
    Nat.ne_of_gt positive (empty k)

theorem popupPassEnd_counts {p : Popup} (some : ∃ k : Fin 32, 0 < p.tally[k])
    (below : p.count + 1 < v.profile.m.toNat) :
    popupPassEnd v pass p d = d.setState (.popup { p with count := p.count + 1 }) :=
  (if_pos (p.tallied_iff.2 some)).trans (if_neg (Nat.not_le.2 below))

theorem popupPassEnd_chooses {p : Popup} (some : ∃ k : Fin 32, 0 < p.tally[k])
    (reached : v.profile.m.toNat ≤ p.count + 1) :
    popupPassEnd v pass p d =
      makeChoice v pass { p with count := p.count + 1 } (d.setState (.popup { p with count := p.count + 1 })) :=
  (if_pos (p.tallied_iff.2 some)).trans (if_pos reached)

end

/-- Settles O31, by the table of a gather and the tally of a pop-up. -/
theorem passEndCountsAGatherAndAPopup : Obligations.PassEndCountsAGatherAndAPopup := by
  unfold Obligations.PassEndCountsAGatherAndAPopup
  refine ⟨fun s a n free opened none gather tip => ⟨_, exec_passEnd_noSwitch a free opened none, fun empty => ?_,
    fun nonempty below => ?_, fun i w close reached wins => ?_⟩,
    fun s a n p free opened none popup => ⟨_, exec_passEnd_noSwitch a free opened none, fun empty => ?_,
      fun some below => ?_, fun k chooses reached => ?_⟩⟩
  · have left := (passEndNotice_gather (v := s.view n) (pass := s.passCount) (d := s.desk n) gather).trans
      (gatherPassEnd_empty empty)
    exact ⟨(s.passEnded_chan n).trans (congrArg Desk.chan left), (s.passEnded_queue n).trans (congrArg Desk.queue left)⟩
  · have some : (s.desk n).chan.anyCandidate = true :=
      Bool.of_not_eq_false fun none => nonempty (PenChannel.anyCandidate_eq_false.1 none)
    have left := (passEndNotice_gather (v := s.view n) (pass := s.passCount) (d := s.desk n) gather).trans
      (gatherPassEnd_counts some below)
    exact ⟨(s.passEnded_chan n).trans (congrArg Desk.chan left), (s.passEnded_queue n).trans (congrArg Desk.queue left)⟩
  · have quiet := State.quiet_of_free free.hand n
    have left := (passEndNotice_gather (v := s.view n) (pass := s.passCount) (d := s.desk n) gather).trans
      (gatherPassEnd_resolves wins.any reached)
    have counted : s.Wins { s.chans[n] with gather := s.chans[n].gather + 1 } i w close := wins
    obtain ⟨chan, queue, flags⟩ := State.passEnded_of_notice left
    refine ⟨fun path pick => ?_, fun m k menu => ⟨_, ?_, chan, queue, flags⟩⟩
    · have put := State.putDesk_resolve_pick quiet .passEnd s.passCount counted pick
      have succ : pickSuccessor .passEnd (w.cls s.active) s.chans[n].tip w =
          if (w.cls s.active).track = true then .track w.pos ((w.sample.getD []).headD 0) else .held := by
        rw [tip]; rfl
      exact ⟨chan.trans (congrArg (·.chans[n]) (put.trans (congrArg _ succ))),
        queue.trans (congrArg (·.queues[n]) (put.trans (congrArg _ succ)))⟩
    · exact State.putDesk_resolve_menu quiet .passEnd s.passCount counted menu
  · have left := (passEndNotice_popup (v := s.view n) (pass := s.passCount) (d := s.desk n) popup).trans
      (popupPassEnd_empty empty)
    exact ⟨(s.passEnded_chan n).trans (congrArg Desk.chan left), (s.passEnded_queue n).trans (congrArg Desk.queue left)⟩
  · have left := (passEndNotice_popup (v := s.view n) (pass := s.passCount) (d := s.desk n) popup).trans
      (popupPassEnd_counts some below)
    exact ⟨(s.passEnded_chan n).trans (congrArg Desk.chan left), (s.passEnded_queue n).trans (congrArg Desk.queue left)⟩
  · have left := (passEndNotice_popup (v := s.view n) (pass := s.passCount) (d := s.desk n) popup).trans
      (popupPassEnd_chooses ⟨k, chooses.1⟩ reached)
    obtain ⟨chan, queue, flags⟩ := State.passEnded_of_notice left
    have counted : Popup.Chooses { p with count := p.count + 1 } k := chooses
    exact ⟨_, State.Quiet.chooses (State.quiet_of_free free.hand n) s.passCount counted _, chan, queue, flags⟩

end Sys2Proof.Machine
end

section
/-! SUPPORT and PROOFS. The attempt of a pending switch at the end of a pass (section 10.6). -/

namespace Sys2Proof.Machine

/-! ## The attempt and its outcomes (R172, R174, R175) -/

theorem otherBank_eq (x : BankId) : otherBank x = if x = .a then .b else .a := by
  cases x <;> rfl

theorem exec_passEnd_switch {s : State} (a : FileAddr) (free : s.InputFree) (opened : s.passState = .opened) :
    exec (.passEnd a) s = .next (s.passEnded.attemptSwitch s.passCount) := by
  rw [exec_passEnd_opened a free opened, State.closePass_eq free.hand]
  rfl

section
variable {s : State} {tag : Tag} (pass : PassNo) (pending : s.pendingSwitch = some tag)
include pending

theorem State.attemptSwitch_copying (copying : s.standby = .copying) : s.attemptSwitch pass = s := by
  unfold State.attemptSwitch
  rw [pending, copying]

theorem State.attemptSwitch_incomplete (incomplete : s.standby = .incomplete) :
    s.attemptSwitch pass = s.endSwitch tag (.refused .standbyIncomplete) (.switchIncomplete pass) := by
  unfold State.attemptSwitch
  rw [pending, incomplete]

theorem State.attemptSwitch_fails {f : SwitchFailure} (ready : s.standby = .ready)
    (fails : s.standbyBank.validate = some f) :
    s.attemptSwitch pass = s.endSwitch tag (.refused .badTable) (.switchFailed pass f) := by
  unfold State.attemptSwitch
  rw [pending, ready, fails]

theorem State.attemptSwitch_made (ready : s.standby = .ready) (sound : s.standbyBank.validate = none) :
    s.attemptSwitch pass = s.switchBanks.endSwitch tag .done (.switchDone pass (otherBank s.selector)) := by
  unfold State.attemptSwitch
  rw [pending, ready, sound]

end

/-! ## The steps of a switch (R174) -/

/-- The part with the banks exchanged and the trails trimmed: steps 1 and 2 of a switch. -/
def State.exchanged (s : State) : State :=
  { s with
    selector := otherBank s.selector
    standby := .ready
    ports := perHead fun n => s.ports[n].trim (s.standbyBank.lag n) }

theorem State.exchanged_active (s : State) : s.exchanged.active = s.standbyBank := by
  unfold State.exchanged State.active State.standbyBank otherBank
  cases s.selector <;> rfl

theorem State.exchanged_standbyBank (s : State) : s.exchanged.standbyBank = s.active := by
  unfold State.exchanged State.active State.standbyBank otherBank
  cases s.selector <;> rfl

/-- What a switch makes of channel `n`'s desk: steps 3 and 4. -/
def State.switchedDesk (s : State) (n : HeadNo) : Desk :=
  popupSwitch (s.exchanged.view n) (switchRecheck (s.exchanged.view n) (s.desk n))

/-- A switch with nothing in hand: steps 1 and 2, each channel's part, and the flags afresh. -/
theorem State.switchBanks_eq {s : State} (free : s.inHand = none) :
    s.switchBanks =
      { s.exchanged with
        chans := perHead fun n => (s.switchedDesk n).chan
        queues := perHead fun n => (s.switchedDesk n).queue
        flags := s.standbyBank.pattern.map (·.active) } := by
  have start : s.switchBanks = State.reloadFlags (allHeads.foldl (fun s n => s.onDesk n popupSwitch)
      (allHeads.foldl (fun s n => s.onDesk n switchRecheck) s.exchanged)) := by
    have active : State.active { s with selector := otherBank s.selector, standby := .ready } = s.standbyBank :=
      s.exchanged_active
    unfold State.exchanged
    rw [← active]
    rfl
  obtain ⟨cs, qs, fl, recheck, each, -⟩ := State.onDesk_list (fun v d e same => switchRecheck_same same v) allHeads
    s.exchanged free allHeads_nodup
  obtain ⟨cs', qs', fl', popups, each', -⟩ := State.onDesk_list (fun v d e same => popupSwitch_same same v) allHeads
    { s.exchanged with chans := cs, queues := qs, flags := fl } free allHeads_nodup
  have left (n : HeadNo) : cs'[n] = (s.switchedDesk n).chan ∧ qs'[n] = (s.switchedDesk n).queue := by
    obtain ⟨chan, queue⟩ := each n (mem_allHeads n)
    obtain ⟨chan', queue'⟩ := each' n (mem_allHeads n)
    obtain ⟨sameChan, sameQueue⟩ := popupSwitch_same (d := ⟨cs[n], qs[n], fl⟩)
      (e := switchRecheck (s.exchanged.view n) (s.desk n)) ⟨chan, queue⟩ (s.exchanged.view n)
    exact ⟨chan'.trans sameChan, queue'.trans sameQueue⟩
  have chans : cs' = perHead fun n => (s.switchedDesk n).chan := vec_ext fun n => by rw [perHead_get]; exact (left n).1
  have queues : qs' = perHead fun n => (s.switchedDesk n).queue := vec_ext fun n => by
    rw [perHead_get]; exact (left n).2
  rw [start, recheck, popups, ← chans, ← queues, ← s.exchanged_active]
  rfl

theorem HeadPort.trim_eq (lag : Nat) (h : HeadPort) :
    h.trim lag = if h.state = .up then { h with trail := trimTrail lag h.trail } else h := by
  unfold HeadPort.trim
  cases h.state <;> rfl

section
variable {v : View} {d : Desk}

theorem switchRecheck_eq_of_notPopup (notPopup : ∀ p, d.chan.state ≠ .popup p) :
    switchRecheck v d =
      { d with
        chan :=
          if d.chan.state = .gather then { d.chan with table := recheckTable v.bank d.chan.filterSet d.chan.table }
          else d.chan } := by
  unfold switchRecheck
  cases state : d.chan.state with
  | popup p => exact absurd state (notPopup p)
  | gather => rfl
  | _ => rfl

theorem switchRecheck_popup {p : Popup} (popup : d.chan.state = .popup p) :
    switchRecheck v d =
      { d with
        chan := { d.chan with
          table := if p.slot.state = .gather then recheckTable v.bank d.chan.filterSet d.chan.table
            else d.chan.table } } := by
  unfold switchRecheck ChanState.holdsCandidates
  rw [popup]
  dsimp only
  by_cases gather : p.slot.state = .gather
  · rw [if_pos gather, if_pos (beq_iff_eq.2 gather)]
  · rw [if_neg gather, if_neg fun same => gather (beq_iff_eq.1 same)]

theorem popupSwitch_other (notPopup : ∀ p, d.chan.state ≠ .popup p) : popupSwitch v d = d := by
  unfold popupSwitch
  split
  · next p popup => exact absurd popup (notPopup p)
  · rfl

theorem popupSwitch_stays {p : Popup} (popup : d.chan.state = .popup p) (named : v.profile.popup? = some p.menu) :
    popupSwitch v d =
      d.setState
        (.popup { p with tally := .replicate 32 0, count := 0, anchor := v.bank.clampAnchor p.menu p.anchor }) := by
  unfold popupSwitch
  rw [popup]
  exact if_pos named

theorem popupSwitch_cancels {p : Popup} (popup : d.chan.state = .popup p) (other : v.profile.popup? ≠ some p.menu) :
    popupSwitch v d = restore v p d := by
  unfold popupSwitch
  rw [popup]
  exact if_neg other

end

theorem ProfileEntry.popup?_eq_some {p : ProfileEntry} {m : MenuId} : p.popup? = some m ↔ p.popup = m ∧ m ≠ 63 := by
  unfold ProfileEntry.popup?
  split_ifs with noMenu
  · exact iff_of_false nofun fun ⟨same, named⟩ => named (same ▸ noMenu)
  · exact Option.some_inj.trans ⟨fun same => ⟨same, same ▸ noMenu⟩, And.left⟩

/-! ## One channel's part of a switch (R98, R124) -/

section
variable {s : State} {n : HeadNo}

theorem State.switchedDesk_notPopup (notPopup : ∀ p, s.chans[n].state ≠ .popup p) :
    s.switchedDesk n =
      { s.desk n with
        chan :=
          if s.chans[n].state = .gather then
            { s.chans[n] with table := recheckTable s.standbyBank s.chans[n].filterSet s.chans[n].table }
          else s.chans[n] } := by
  have left := switchRecheck_eq_of_notPopup (v := s.exchanged.view n) (d := s.desk n) notPopup
  rw [show (s.exchanged.view n).bank = s.standbyBank from s.exchanged_active] at left
  refine (congrArg (popupSwitch _) left).trans (popupSwitch_other fun p => ?_)
  dsimp only
  split_ifs
  · exact notPopup p
  · exact notPopup p

/-- The channel under a pop-up with its frozen candidates re-checked against the new bank (R98). -/
def State.rechecked (s : State) (n : HeadNo) (p : Popup) : PenChannel :=
  { s.chans[n] with
    table :=
      if p.slot.state = .gather then recheckTable s.standbyBank s.chans[n].filterSet s.chans[n].table
      else s.chans[n].table }

theorem State.switchedDesk_popup {p : Popup} (popup : s.chans[n].state = .popup p) :
    s.switchedDesk n = popupSwitch (s.exchanged.view n) { s.desk n with chan := s.rechecked n p } := by
  have left := switchRecheck_popup (v := s.exchanged.view n) (d := s.desk n) popup
  rw [show (s.exchanged.view n).bank = s.standbyBank from s.exchanged_active] at left
  exact congrArg (popupSwitch _) left

theorem State.exchanged_popup? (s : State) (n : HeadNo) :
    (s.exchanged.view n).profile.popup? = s.standbyBank.profile[n].popup? :=
  congrArg (fun b : Bank => b.profile[n].popup?) s.exchanged_active

theorem State.switchedDesk_stays {p : Popup} {e : MenuEntry} (popup : s.chans[n].state = .popup p)
    (named : s.standbyBank.profile[n].popup = p.menu) (isMenu : p.menu ≠ 63)
    (menu : s.standbyBank.menu[p.menu.toNat]? = some e) :
    s.switchedDesk n =
      { s.desk n with
        chan := { s.rechecked n p with
          state := .popup { p with tally := .replicate 32 0, count := 0, anchor := anchorWithin e p.anchor } } } := by
  have stays := (s.exchanged_popup? n).trans (ProfileEntry.popup?_eq_some.2 ⟨named, isMenu⟩)
  rw [State.switchedDesk_popup popup, popupSwitch_stays (d := { s.desk n with chan := s.rechecked n p }) popup stays,
    ← Bank.clampAnchor_eq menu, ← s.exchanged_active]
  rfl

theorem State.switchedDesk_cancels {p : Popup} (free : s.inHand = none) (popup : s.chans[n].state = .popup p)
    (other : s.standbyBank.profile[n].popup ≠ p.menu ∨ p.menu = 63) :
    ∃ v, (s.exchanged.withChan n ((s.rechecked n p).restored p)).Reconciled n p.slot v ∧
      (s.switchedDesk n).chan = v.chans[n] ∧ (s.switchedDesk n).queue = v.queues[n] := by
  have cancels : (s.exchanged.view n).profile.popup? ≠ some p.menu := fun named =>
    have ⟨same, isMenu⟩ := ProfileEntry.popup?_eq_some.1 ((s.exchanged_popup? n).symm.trans named)
    other.elim (fun differs => differs same) fun noMenu => isMenu noMenu
  have quiet : s.exchanged.Quiet n := State.quiet_of_free free n
  have left := quiet.restored p (s.rechecked n p) s.exchanged.queues[n] s.exchanged.flags
  rw [s.exchanged.withQueue_self] at left
  have desk : s.switchedDesk n = restore (s.exchanged.view n) p { s.desk n with chan := s.rechecked n p } := by
    rw [State.switchedDesk_popup popup,
      popupSwitch_cancels (d := { s.desk n with chan := s.rechecked n p }) popup cancels]
  refine ⟨_, left, ?_, ?_⟩
  · rw [State.putDesk_chan_self, desk]; rfl
  · rw [State.putDesk_queue_self, desk]; rfl

end

/-- The part after a switch that is made, from the part `u` that the notices left. -/
def State.switched (u : State) (tag : Tag) (pass : PassNo) : State :=
  { u.exchanged with
    chans := perHead fun n => (u.switchedDesk n).chan
    queues := perHead fun n => (u.switchedDesk n).queue
    flags := u.standbyBank.pattern.map (·.active)
    reserved := false
    replies := u.replies ++ [⟨tag, 5, .done, .switchDone pass (otherBank u.selector)⟩] }

theorem State.switched_chan (u : State) (tag : Tag) (pass : PassNo) (n : HeadNo) :
    (u.switched tag pass).chans[n] = (u.switchedDesk n).chan := perHead_get _ n

theorem State.switched_queue (u : State) (tag : Tag) (pass : PassNo) (n : HeadNo) :
    (u.switched tag pass).queues[n] = (u.switchedDesk n).queue := perHead_get _ n

/-- Settles O42, by the standby state and the validation; the switch step by step. -/
theorem passEndAttemptsTheSwitch : Obligations.PassEndAttemptsTheSwitch := by
  unfold Obligations.PassEndAttemptsTheSwitch
  intro s a tag free opened pending
  have run : exec (.passEnd a) s = .next (s.passEnded.attemptSwitch s.passCount) := exec_passEnd_switch a free opened
  have waits : s.passEnded.pendingSwitch = some tag := pending
  refine ⟨State.passEnded { s with pendingSwitch := none },
    exec_passEnd_noSwitch a ⟨free.hand, free.offered⟩ opened rfl,
    fun copying => ?_, fun incomplete => ?_, fun f ready fails => ?_, fun ready sound => ?_⟩
  · rw [run, State.attemptSwitch_copying s.passCount waits copying, ← pending]
    rfl
  · rw [run, State.attemptSwitch_incomplete s.passCount waits incomplete]
    rfl
  · rw [run, State.attemptSwitch_fails s.passCount waits ready fails]
    rfl
  · have made := State.attemptSwitch_made s.passCount waits ready sound
    rw [State.switchBanks_eq (s := s.passEnded) free.hand] at made
    generalize isLeft : State.passEnded { s with pendingSwitch := none } = u
    have hand : u.inHand = none := isLeft ▸ free.hand
    have standby : u.standbyBank = s.standbyBank := isLeft ▸ rfl
    have active : u.active = s.active := isLeft ▸ rfl
    have selector : u.selector = s.selector := isLeft ▸ rfl
    have result : s.passEnded.attemptSwitch s.passCount = u.switched tag s.passCount := by
      rw [made, ← isLeft]
      rfl
    rw [← standby, ← active, ← selector, ← otherBank_eq]
    refine ⟨_, run.trans (congrArg Host.Outcome.next result), u.exchanged_active, u.exchanged_standbyBank, fun n => ?_,
      fun n drawn sent trail isDrawn isSent => ?_, fun n notPopup => ?_,
      fun n p popup => ⟨fun e named isMenu menu => ?_,
        fun other => ?_⟩, rfl⟩
    · exact (perHead_get _ n).trans (HeadPort.trim_eq _ _)
    · rw [trail]
      exact trimTrail_ordered _ isDrawn isSent
    · rw [u.switched_chan, u.switched_queue, State.switchedDesk_notPopup notPopup]
      exact ⟨rfl, rfl⟩
    · rw [u.switched_chan, u.switched_queue, State.switchedDesk_stays popup named isMenu menu]
      exact ⟨rfl, rfl⟩
    · rw [u.switched_chan, u.switched_queue]
      exact State.switchedDesk_cancels hand popup other

end Sys2Proof.Machine
end

section
/-! SUPPORT and PROOFS. The validation of a bank (section 10.5): the entry that each table's search finds, and the
search over the tables in order. -/

namespace Sys2Proof.Machine

/-! ## When an entry fails its table's test (R173) -/

theorem Window.bad_iff (w : Window) : w.bad = true ↔ w.enable = true ∧ w.limit.toNat < w.base.toNat := by
  unfold Window.bad
  rw [Bool.and_eq_true, decide_eq_true_eq, BitVec.lt_def]

theorem HeadMapEntry.bad_iff (e : HeadMapEntry) :
    e.bad = true ↔ ∃ w, (w = e.w0 ∨ w = e.w1) ∧ w.enable = true ∧ w.limit.toNat < w.base.toNat := by
  unfold HeadMapEntry.bad
  rw [Bool.or_eq_true, Window.bad_iff, Window.bad_iff]
  constructor
  · rintro (first | second)
    · exact ⟨_, .inl rfl, first⟩
    · exact ⟨_, .inr rfl, second⟩
  · rintro ⟨w, rfl | rfl, bad⟩
    · exact .inl bad
    · exact .inr bad

/-- A three-bit field from 1 to 6. -/
theorem oneToSix_iff : ∀ x : BitVec 3, (x == 0 || x == 7) = true ↔ ¬ (1 ≤ x.toNat ∧ x.toNat ≤ 6) := by decide

theorem MenuEntry.owner?_eq_some (e : MenuEntry) (n : HeadNo) : e.owner? = some n ↔ e.owner.toNat = n.val := by
  unfold MenuEntry.owner?
  split_ifs with owner
  · exact Option.some_inj.trans Fin.ext_iff
  · exact iff_of_false nofun fun same => owner (same ▸ n.isLt)

theorem MenuEntry.owner?_isNone (e : MenuEntry) : e.owner?.isNone = true ↔ 3 < e.owner.toNat := by
  unfold MenuEntry.owner?
  split_ifs with owner
  · exact iff_of_false nofun (by omega)
  · exact iff_of_true rfl (by omega)

theorem MenuEntry.isFixed_iff (e : MenuEntry) : e.isFixed = true ↔ e.kind = 1 := beq_iff_eq

theorem MenuEntry.isPopup_iff (e : MenuEntry) : e.isPopup = true ↔ e.kind = 2 := beq_iff_eq

theorem MenuEntry.defined_iff (e : MenuEntry) : e.defined = true ↔ e.kind = 1 ∨ e.kind = 2 := by
  unfold MenuEntry.defined
  rw [Bool.or_eq_true, e.isFixed_iff, e.isPopup_iff]

theorem Bank.popupOwned_iff (b : Bank) (n : HeadNo) (p : ProfileEntry) :
    b.popupOwned n.val p = true ↔
      (p.popup ≠ 63 → ∃ m, b.menu[p.popup.toNat]? = some m ∧ m.kind = 2 ∧ m.owner.toNat = n.val) := by
  unfold Bank.popupOwned ProfileEntry.popup? Bank.menu?
  split_ifs with noMenu
  · exact iff_of_true rfl fun some => absurd noMenu some
  · dsimp only
    cases b.menu[p.popup.toNat]? with
    | none => exact iff_of_false nofun fun owned => nomatch owned noMenu
    | some e =>
      have owner : (e.owner?.map (·.val) == some n.val) = true ↔ e.owner.toNat = n.val := by
        rw [beq_iff_eq, Option.map_eq_some_iff, ← e.owner?_eq_some n]
        exact ⟨fun ⟨m, owner, same⟩ => Fin.ext same ▸ owner, fun owner => ⟨n, owner, rfl⟩⟩
      dsimp only
      rw [Bool.and_eq_true, e.isPopup_iff, owner]
      exact ⟨fun owned _ => ⟨e, rfl, owned⟩, fun owned => have ⟨m, same, rest⟩ := owned noMenu
        Option.some.inj same ▸ rest⟩

theorem ProfileEntry.bad_iff (b : Bank) (n : HeadNo) (e : ProfileEntry) :
    e.bad b n.val = true ↔
      (e.g = 0 ∨ e.k = 0 ∨ e.m = 0 ∨ ¬ (1 ≤ e.d.toNat ∧ e.d.toNat ≤ 6) ∨ e.a.toNat < 8 ∨
        (e.popup ≠ 63 ∧ ¬ ∃ m, b.menu[e.popup.toNat]? = some m ∧ m.kind = 2 ∧ m.owner.toNat = n.val)) := by
  have owned := not_congr (b.popupOwned_iff n e)
  rw [Classical.not_imp, Bool.not_eq_true] at owned
  have depth := oneToSix_iff e.d
  rw [Bool.or_eq_true] at depth
  unfold ProfileEntry.bad
  rw [← owned, ← depth]
  simp only [Bool.or_eq_true, beq_iff_eq, decide_eq_true_eq, Bool.not_eq_true', or_assoc]

theorem FilterEntry.bad_iff (e : FilterEntry) :
    e.bad = true ↔ ¬ (1 ≤ e.level.toNat ∧ e.level.toNat ≤ 6) ∨ 4096 < e.limit.toNat := by
  unfold FilterEntry.bad
  rw [Bool.or_eq_true, oneToSix_iff, decide_eq_true_eq]

theorem MenuEntry.bad_iff (e : MenuEntry) :
    e.bad = true ↔
      ((e.kind = 1 ∨ e.kind = 2) ∧ 256 < e.first.toNat + (e.countLess1.toNat + 1)) ∨
        (e.kind = 2 ∧ (3 < e.owner.toNat ∨ e.w = 0 ∨ e.h = 0)) := by
  unfold MenuEntry.bad
  rw [Bool.or_eq_true, Bool.and_eq_true, Bool.and_eq_true, Bool.or_eq_true, Bool.or_eq_true, e.defined_iff,
    e.isPopup_iff, e.owner?_isNone, decide_eq_true_eq, beq_iff_eq, beq_iff_eq, or_assoc]
  rfl

theorem MenuEntry.reaches_iff (e : MenuEntry) (i : Nat) :
    e.reaches i = true ↔ e.first.toNat ≤ i ∧ i < e.first.toNat + (e.countLess1.toNat + 1) := decide_eq_true_iff

theorem ItemEntry.act_eq_setFilter (e : ItemEntry) : e.act = .setFilter ↔ e.action = 2 := by
  refine ⟨fun set => ?_, ItemEntry.act_two⟩
  unfold ItemEntry.act at set
  split at set
  case h_2 two => exact BitVec.eq_of_toNat_eq two
  all_goals cases set

theorem ItemEntry.act_eq_trackHere (e : ItemEntry) : e.act = .trackHere ↔ e.action = 4 :=
  ⟨ItemEntry.action_of_trackHere, ItemEntry.act_four⟩

theorem vec_any_iff {α : Type} {k : Nat} (v : Vector α k) (test : α → Bool) :
    v.toList.any test = true ↔ ∃ i : Fin k, test v[i] = true := by
  rw [List.any_eq_true]
  constructor
  · rintro ⟨x, mem, passes⟩
    obtain ⟨i, hi, rfl⟩ := Vector.getElem_of_mem (Vector.mem_toList_iff.1 mem)
    exact ⟨⟨i, hi⟩, passes⟩
  · rintro ⟨i, passes⟩
    exact ⟨v[i], Vector.mem_toList_iff.2 (Vector.getElem_mem i.isLt), passes⟩

theorem Bank.itemBad_iff (b : Bank) (i : Nat) (e : ItemEntry) :
    b.itemBad i e = true ↔ ∃ m : Fin 32,
      b.menu[m].first.toNat ≤ i ∧ i < b.menu[m].first.toNat + (b.menu[m].countLess1.toNat + 1) ∧
      (((b.menu[m].kind = 1 ∨ b.menu[m].kind = 2) ∧ e.action = 2 ∧ 3 < e.arg.toNat) ∨
        (b.menu[m].kind = 1 ∧ e.action = 4)) := by
  unfold Bank.itemBad
  simp only [Bool.or_eq_true, Bool.and_eq_true, beq_iff_eq, decide_eq_true_eq, vec_any_iff, e.act_eq_setFilter,
    e.act_eq_trackHere, MenuEntry.defined_iff, MenuEntry.isFixed_iff, MenuEntry.reaches_iff]
  constructor
  · rintro (⟨⟨two, large⟩, m, defined, low, high⟩ | ⟨four, m, fixed, low, high⟩)
    · exact ⟨m, low, high, .inl ⟨defined, two, large⟩⟩
    · exact ⟨m, low, high, .inr ⟨fixed, four⟩⟩
  · rintro ⟨m, low, high, ⟨defined, two, large⟩ | ⟨fixed, four⟩⟩
    · exact .inl ⟨⟨two, large⟩, m, defined, low, high⟩
    · exact .inr ⟨four, m, fixed, low, high⟩

theorem patternKind_iff : ∀ k : BitVec 2, (match k.toNat with
    | 1 => PatternKind.highlight | 2 => .blink | 3 => .blank | _ => .none) ≠ .none ↔ k ≠ 0 := by decide

theorem PatternEntry.bad_iff (e : PatternEntry) :
    e.bad = true ↔ e.kind ≠ 0 ∧ (¬ (1 ≤ e.depth.toNat ∧ e.depth.toNat ≤ 6) ∨ e.mask = 0) := by
  have kind : e.what ≠ .none ↔ e.kind ≠ 0 := patternKind_iff e.kind
  unfold PatternEntry.bad
  rw [Bool.and_eq_true, Bool.or_eq_true, oneToSix_iff, bne_iff_ne, kind, beq_iff_eq]

theorem ringSource_isNone : ∀ c : BitVec 3, (ringSource c).isNone = true ↔ 5 < c.toNat := by decide

theorem GlobalEntry.bad_iff (e : GlobalEntry) : e.bad = true ↔ 3 < e.defaultHead.toNat ∧ e.defaultHead ≠ 7 := by
  unfold GlobalEntry.bad GlobalEntry.defaultHead?
  rw [Bool.and_eq_true, bne_iff_ne]
  split_ifs with head
  · exact iff_of_false nofun fun ⟨large, _⟩ => by omega
  · exact and_congr_left fun _ => iff_of_true rfl (by omega)

/-! ## The search of one table -/

/-- What a search finds of a property of indices: nothing, or the lowest index that has it. -/
def FirstFailure (fails : Nat → Prop) : Option Nat → Prop
  | none => ∀ i, ¬ fails i
  | some j => fails j ∧ ∀ i, fails i → j ≤ i

theorem firstBad_firstFailure {α : Type} {bad : Nat → α → Bool} {l : List α} {fails : Nat → Prop}
    (isBad : ∀ i, fails i ↔ ∃ e, l[i]? = some e ∧ bad i e = true) : FirstFailure fails (firstBad bad 0 l) := by
  cases found : firstBad bad 0 l with
  | none =>
    intro i failed
    obtain ⟨e, entry, isBad⟩ := (isBad i).1 failed
    have good := (firstBad_eq_none bad l 0).1 found i e entry
    rw [Nat.zero_add, isBad] at good
    cases good
  | some j =>
    obtain ⟨k, e, rfl, entry, isBadHere, before⟩ := firstBad_eq_some found
    rw [Nat.zero_add] at isBadHere ⊢
    refine ⟨(isBad k).2 ⟨e, entry, isBadHere⟩, fun i failed => Nat.not_lt.1 fun lower => ?_⟩
    obtain ⟨x, at_, isBadThere⟩ := (isBad i).1 failed
    have good := before i x lower at_
    rw [Nat.zero_add, isBadThere] at good
    cases good

/-- The search of one table for its first failing entry (R173). -/
def Bank.scan (b : Bank) : TableId → Option Nat
  | .headmap => firstBad (fun _ e => e.bad) 0 b.headmap.toList
  | .profile => firstBad (ProfileEntry.bad b) 0 b.profile.toList
  | .filter => firstBad (fun _ e => e.bad) 0 b.filter.toList
  | .menu => firstBad (fun _ e => e.bad) 0 b.menu.toList
  | .item => firstBad b.itemBad 0 b.item.toList
  | .pattern => firstBad (fun _ e => e.bad) 0 b.pattern.toList
  | .ring => firstBad (fun _ c => (ringSource c).isNone) 0 b.ring.toList
  | .global => firstBad (fun _ e => e.bad) 0 [b.global]
  | .classes | .permit | .scale => none

/-- The entries of a vector that fail a test, in its list. -/
theorem exists_entry_congr {α : Type} {k : Nat} {v : Vector α k} {i : Nat} {p q : α → Prop}
    (same : ∀ e, v[i]? = some e → (p e ↔ q e)) :
    (∃ e, v[i]? = some e ∧ p e) ↔ ∃ e, v.toList[i]? = some e ∧ q e := by
  rw [Vector.getElem?_toList]
  exact exists_congr fun e => and_congr_right (same e)

theorem Bank.scan_firstFailure (b : Bank) (t : TableId) : FirstFailure (b.Fails t) (b.scan t) := by
  cases t with
  | headmap => exact firstBad_firstFailure fun i => exists_entry_congr fun e _ => e.bad_iff.symm
  | profile =>
    refine firstBad_firstFailure fun i => exists_entry_congr fun e entry => ?_
    obtain ⟨inside, -⟩ := Vector.getElem?_eq_some_iff.1 entry
    exact (ProfileEntry.bad_iff b ⟨i, inside⟩ e).symm
  | filter => exact firstBad_firstFailure fun i => exists_entry_congr fun e _ => e.bad_iff.symm
  | menu => exact firstBad_firstFailure fun i => exists_entry_congr fun e _ => e.bad_iff.symm
  | item => exact firstBad_firstFailure fun i => exists_entry_congr fun e _ => (b.itemBad_iff i e).symm
  | pattern => exact firstBad_firstFailure fun i => exists_entry_congr fun e _ => e.bad_iff.symm
  | ring => exact firstBad_firstFailure fun i => exists_entry_congr fun c _ => (ringSource_isNone c).symm
  | global =>
    refine firstBad_firstFailure fun i => ?_
    cases i with
    | zero =>
      refine (and_iff_right rfl).trans (b.global.bad_iff.symm.trans ?_)
      simp
    | succ i => exact iff_of_false (fun ⟨zero, _⟩ => nomatch zero) (by simp)
  | _ => exact fun i failed => failed

theorem Bank.scan_eq_none (b : Bank) (t : TableId) : b.scan t = none ↔ ∀ i, ¬ b.Fails t i := by
  have first := b.scan_firstFailure t
  cases found : b.scan t with
  | none => rw [found] at first; exact iff_of_true rfl first
  | some j => rw [found] at first; exact iff_of_false nofun fun none => none j first.1

/-! ## The absent sources (R173) -/

theorem ringSource_eq_some : ∀ (c : BitVec 3) (x : Source), ringSource c = some x ↔ c.toNat = x.place := by
  intro c x
  cases x with
  | chan n => exact ringSource_eq_chan c n
  | reply => revert c; decide
  | status => revert c; decide

/-- No slot of the ring names the source. -/
theorem Bank.absent_iff (b : Bank) (x : Source) :
    (!b.ring.toList.any fun c => ringSource c == some x) = true ↔ ¬ b.HasSource x := by
  rw [Bool.not_eq_true', ← Bool.not_eq_true, vec_any_iff]
  exact not_congr (exists_congr fun i => beq_iff_eq.trans (ringSource_eq_some _ x))

/-- The first source that no slot of the ring names, as a failure. -/
def Bank.absentSource (b : Bank) : Option SwitchFailure :=
  (allSources.find? fun src => !b.ring.toList.any fun c => ringSource c == some src).map fun src => ⟨.ring, 8, some src⟩

theorem mem_allSources (x : Source) : x ∈ allSources := by
  cases x with
  | chan n => fin_cases n <;> decide
  | reply => decide
  | status => decide

theorem allSources_ordered : allSources.Pairwise (·.place < ·.place) := by
  decide

theorem Bank.absentSource_eq_none (b : Bank) : b.absentSource = none ↔ ∀ x, b.HasSource x := by
  unfold Bank.absentSource
  rw [Option.map_eq_none_iff, List.find?_eq_none]
  simp only [b.absent_iff, not_not]
  exact ⟨fun all x => all x (mem_allSources x), fun all x _ => all x⟩

theorem Bank.absentSource_eq_some {b : Bank} {f : SwitchFailure} (absent : b.absentSource = some f) :
    ∃ x, f = ⟨.ring, 8, some x⟩ ∧ ¬ b.HasSource x ∧ ∀ y, y.place < x.place → b.HasSource y := by
  obtain ⟨x, found, rfl⟩ := Option.map_eq_some_iff.1 absent
  obtain ⟨isAbsent, pre, post, split, before⟩ := List.find?_eq_some_iff_append.1 found
  refine ⟨x, rfl, (b.absent_iff x).1 isAbsent, fun y lower => ?_⟩
  have ordered := allSources_ordered
  have place := mem_allSources y
  rw [split] at ordered place
  rcases List.mem_append.1 place with earlier | later
  · have named := before y earlier
    rw [Bool.not_eq_true', Bool.eq_false_iff] at named
    exact Classical.not_not.1 fun absent => named ((b.absent_iff y).2 absent)
  · rcases List.mem_cons.1 later with rfl | later
    · exact absurd lower (Nat.lt_irrefl _)
    · have above := (List.pairwise_cons.1 (List.pairwise_append.1 ordered).2.1).1 y later
      exact absurd lower (Nat.lt_asymm above)

/-! ## The search over the tables -/

/-- The tables before GLOBAL in table order. -/
def tablesToRing : List TableId :=
  [.headmap, .profile, .classes, .filter, .permit, .menu, .item, .pattern, .scale, .ring]

/-- The first failing entry of a table, as a failure. -/
def Bank.failure (b : Bank) (t : TableId) : Option SwitchFailure := failAt t (b.scan t)

theorem findSome?_cons_or {α β : Type} (f : α → Option β) (a : α) (l : List α) :
    (a :: l).findSome? f = (f a).or (l.findSome? f) := by
  rw [List.findSome?_cons]
  cases f a <;> rfl

theorem Bank.ringFailure_eq (b : Bank) : b.ringFailure = (b.failure .ring).or b.absentSource := by
  unfold Bank.ringFailure Bank.failure Bank.scan
  cases firstBad (fun _ c => (ringSource c).isNone) 0 b.ring.toList <;> rfl

theorem Bank.validate_eq (b : Bank) :
    b.validate = (tablesToRing.findSome? b.failure).or (b.absentSource.or (b.failure .global)) := by
  unfold Bank.validate tablesToRing
  have skipped (t : TableId) (noTest : b.scan t = none) : b.failure t = none := by
    unfold Bank.failure
    rw [noTest]
    rfl
  simp only [findSome?_cons_or, List.findSome?_nil, skipped .classes rfl, skipped .permit rfl, skipped .scale rfl,
    Option.or_none, Option.none_or, Option.or_assoc, b.ringFailure_eq, Option.orElse_eq_orElse, Option.orElse_eq_or]
  rfl

theorem Bank.failure_eq_none (b : Bank) (t : TableId) : b.failure t = none ↔ ∀ i, ¬ b.Fails t i :=
  Option.map_eq_none_iff.trans (b.scan_eq_none t)

theorem Bank.failure_eq_some {b : Bank} {t : TableId} {f : SwitchFailure} (failed : b.failure t = some f) :
    f.table = t ∧ f.source = none ∧ b.Fails t f.index ∧ ∀ i, b.Fails t i → f.index ≤ i := by
  obtain ⟨j, found, rfl⟩ := Option.map_eq_some_iff.1 failed
  have first := b.scan_firstFailure t
  rw [found] at first
  obtain ⟨fails, lowest⟩ := first
  exact ⟨rfl, rfl, fails, lowest⟩

theorem tablesToRing_ordered : tablesToRing.Pairwise (·.code < ·.code) := by
  decide

theorem mem_tablesToRing {t : TableId} : t ∈ tablesToRing ↔ t ≠ .global := by
  cases t <;> decide

theorem code_lt_global {t : TableId} (before : t ≠ .global) : t.code < TableId.code .global := by
  revert before
  cases t <;> decide

/-- A table before GLOBAL that fails, with no failure in a table before it. -/
theorem Bank.tables_eq_some {b : Bank} {f : SwitchFailure} (failed : tablesToRing.findSome? b.failure = some f) :
    f.source = none ∧ f.table ≠ .global ∧ b.Fails f.table f.index ∧
      ∀ t i, b.Fails t i → f.table.code < t.code ∨ (t = f.table ∧ f.index ≤ i) := by
  obtain ⟨pre, u, post, split, here, before⟩ := List.findSome?_eq_some_iff.1 failed
  obtain ⟨rfl, source, fails, lowest⟩ := Bank.failure_eq_some here
  have early : f.table ≠ .global := mem_tablesToRing.1 (by rw [split]; simp)
  have ordered := tablesToRing_ordered
  rw [split] at ordered
  have after := (List.pairwise_cons.1 (List.pairwise_append.1 ordered).2.1).1
  refine ⟨source, early, fails, fun t i failing => ?_⟩
  by_cases last : t = .global
  · exact .inl (last ▸ code_lt_global early)
  · have place := mem_tablesToRing.2 last
    rw [split] at place
    rcases List.mem_append.1 place with earlier | later
    · exact absurd failing ((b.failure_eq_none t).1 (before t earlier) i)
    · rcases List.mem_cons.1 later with rfl | later
      · exact .inr ⟨rfl, lowest i failing⟩
      · exact .inl (after t later)

theorem Bank.tables_eq_none (b : Bank) :
    tablesToRing.findSome? b.failure = none ↔ ∀ t i, b.Fails t i → t = .global := by
  rw [List.findSome?_eq_none_iff]
  constructor
  · exact fun none t i failing => Classical.not_not.1 fun before =>
      (b.failure_eq_none t).1 (none t (mem_tablesToRing.2 before)) i failing
  · exact fun only t mem => (b.failure_eq_none t).2 fun i failing => mem_tablesToRing.1 mem (only t i failing)

/-- Settles O43: the search over the tables, the absent sources, and GLOBAL. -/
theorem validationPassesSoundBanks : Obligations.ValidationPassesSoundBanks := by
  unfold Obligations.ValidationPassesSoundBanks
  refine fun b => ⟨?_, fun f failed => ?_⟩
  · rw [b.validate_eq, Option.or_eq_none_iff, Option.or_eq_none_iff, b.tables_eq_none, b.absentSource_eq_none,
      b.failure_eq_none]
    constructor
    · rintro ⟨only, sources, none⟩
      refine ⟨fun t i failing => ?_, sources⟩
      obtain rfl := only t i failing
      exact none i failing
    · rintro ⟨none, sources⟩
      exact ⟨fun t i failing => absurd failing (none t i), sources, none .global⟩
  · rw [b.validate_eq, Option.or_eq_some_iff, Option.or_eq_some_iff] at failed
    rcases failed with table | ⟨none, absent | ⟨sources, last⟩⟩
    · obtain ⟨source, early, fails, first⟩ := Bank.tables_eq_some table
      exact .inl ⟨source, fails, first, fun late => absurd late early⟩
    · obtain ⟨x, rfl, isAbsent, before⟩ := Bank.absentSource_eq_some absent
      exact .inr ⟨x, rfl, isAbsent, before, b.tables_eq_none.1 none⟩
    · obtain ⟨table, source, fails, lowest⟩ := Bank.failure_eq_some last
      refine .inl ⟨source, table ▸ fails, fun t i failing => ?_, fun _ => b.absentSource_eq_none.1 sources⟩
      obtain rfl := b.tables_eq_none.1 none t i failing
      exact .inr ⟨table.symm, lowest i failing⟩

end Sys2Proof.Machine
end

section
/-! SUPPORT and PROOFS. MENU-OPEN and ITEM at the Context Trackers (sections 2.3 and 2.4). -/

namespace Sys2Proof.Machine

/-! ## Marks that raise faults of two kinds (R13, R19) -/

theorem flatMap_ite_singleton {α β : Type} (p : α → Prop) [DecidablePred p] (x : β) (l : List α) :
    (l.flatMap fun n => if p n then [x] else []) = (l.filter p).map fun _ => x := by
  induction l with
  | nil => rfl
  | cons a l ih =>
    rw [List.flatMap_cons, List.filter_cons, ih]
    by_cases here : p a
    · rw [if_pos here, if_pos (decide_eq_true here)]; rfl
    · rw [if_neg here, if_neg (mt of_decide_eq_true here)]; rfl

/-- One fault of a kind for each head of a list. -/
theorem State.raiseAll_const (s : State) (k : FaultKind) (hs : List HeadNo) :
    s.raiseAll (hs.map fun _ => k) = hs.foldl (fun u _ => u.raise k) s := List.foldl_map

/-- A mark that raises a fault of kind `j` in a tracker with the property `first`, then one of kind `k` in a tracker
with the property `second`: the trackers of the heads it reaches take it, the faults are counted head by head, and
nothing else changes. -/
theorem exec_mark_raisingTwo {s : State} {a : FileAddr} {m : Mark} (j k : FaultKind) (first second : Tracker → Prop)
    [DecidablePred first] [DecidablePred second]
    (faults : ∀ tr : Tracker, (tr.take s.active m).2 =
      (if first tr then [j] else []) ++ (if second tr then [k] else []))
    (form : Record.formOk ⟨a, .mark m⟩ = true) (free : s.InputFree) (opened : s.passState = .opened)
    (reached : ∃ n, s.reaches a n) :
    ∃ (t : State) (firsts seconds : List HeadNo), exec (Record.toInstr ⟨a, .mark m⟩) s = .next t ∧
      (∀ n : HeadNo, ¬ s.reaches a n → t.trackers[n] = s.trackers[n]) ∧
      (∀ n : HeadNo, s.reaches a n → t.trackers[n] = (s.trackers[n].take s.active m).1) ∧
      firsts.Nodup ∧ (∀ n : HeadNo, n ∈ firsts ↔ s.reaches a n ∧ first s.trackers[n]) ∧
      seconds.Nodup ∧ (∀ n : HeadNo, n ∈ seconds ↔ s.reaches a n ∧ second s.trackers[n]) ∧
      t = { seconds.foldl (fun u _ => u.raise k) (firsts.foldl (fun u _ => u.raise j) s) with
            trackers := t.trackers } := by
  have nodup := s.destinations_nodup a
  obtain ⟨others, taken, whole⟩ := State.deliverMark_all m (s.destinations a) s nodup
  let raisers (p : Tracker → Prop) [DecidablePred p] : List HeadNo := (s.destinations a).filter fun n => p s.trackers[n]
  have mem (p : Tracker → Prop) [DecidablePred p] (n : HeadNo) : n ∈ raisers p ↔ s.reaches a n ∧ p s.trackers[n] := by
    rw [List.mem_filter, s.mem_destinations, decide_eq_true_eq]
  have order : (s.destinations a).flatMap (fun n => (s.trackers[n].take s.active m).2) |>.Perm
      ((raisers first).map (fun _ => j) ++ (raisers second).map fun _ => k) := by
    rw [← flatMap_ite_singleton (fun n => first s.trackers[n]) j,
      ← flatMap_ite_singleton (fun n => second s.trackers[n]) k]
    simp only [faults]
    exact (List.flatMap_append_perm ..).symm
  refine ⟨_, raisers first, raisers second, exec_mark_reached form free opened reached,
    fun n hn => others n fun mem => hn ((s.mem_destinations a n).1 mem),
    fun n hn => taken n ((s.mem_destinations a n).2 hn), nodup.filter _, mem first, nodup.filter _, mem second, ?_⟩
  rw [← State.raiseAll_const, ← State.raiseAll_const, ← State.raiseAll_append, ← State.raiseAll_perm order]
  exact whole

/-! ## MENU-OPEN and ITEM in one tracker (R25 to R27) -/

theorem Bank.regionKind_of_entry {b : Bank} {m : MenuId} {e : MenuEntry} (entry : b.menu[m.toNat]? = some e) :
    b.regionKind m = if e.kind = 1 then .fixed else if e.kind = 2 then .popup else .undefined := by
  unfold Bank.regionKind Bank.menu?
  rw [entry]
  dsimp only
  simp only [e.isFixed_iff, e.isPopup_iff]

theorem Bank.regionKind_of_none {b : Bank} {m : MenuId} (none : b.menu[m.toNat]? = none) :
    b.regionKind m = .undefined := by
  unfold Bank.regionKind Bank.menu?
  rw [none]

/-- The menu has an item of this number (R27). -/
def Bank.hasItem (b : Bank) (m : MenuId) (k : ItemNo) : Prop :=
  ∃ e : MenuEntry, b.menu[m.toNat]? = some e ∧ k.toNat < e.countLess1.toNat + 1

section
variable {b : Bank} {t : Tracker} {k : ItemNo} {m : MenuId} {kind : RegionKind} {it : Option ItemMark}

theorem Tracker.item_outside (outside : t.region = .outside) : t.item b k = (t, [.menuForm]) := by
  unfold Tracker.item; rw [outside]

theorem Tracker.item_undefined (inside : t.region = .inside m .undefined it) : t.item b k = (t, []) := by
  unfold Tracker.item; rw [inside]

theorem Tracker.item_within {e : MenuEntry} (inside : t.region = .inside m kind it) (defined : kind ≠ .undefined)
    (entry : b.menu[m.toNat]? = some e) (within : k.toNat < e.countLess1.toNat + 1) :
    t.item b k =
      ({ t with region := .inside m kind (some ⟨k, ((b.item? e k).map fun i => !i.enabled).getD true⟩) }, []) := by
  unfold Tracker.item Bank.menu?
  rw [inside]
  cases kind with
  | undefined => exact absurd rfl defined
  | fixed => dsimp only; rw [entry]; exact if_pos within
  | popup => dsimp only; rw [entry]; exact if_pos within

theorem Tracker.item_beyond (inside : t.region = .inside m kind it) (defined : kind ≠ .undefined)
    (beyond : ¬ b.hasItem m k) : t.item b k = ({ t with region := .inside m kind none }, [.itemRange]) := by
  unfold Tracker.item Bank.menu?
  rw [inside]
  have outOfRange (e : MenuEntry) (entry : b.menu[m.toNat]? = some e) : ¬ k.toNat < e.count :=
    fun within => beyond ⟨e, entry, within⟩
  cases kind with
  | undefined => exact absurd rfl defined
  | fixed =>
    dsimp only
    cases entry : b.menu[m.toNat]? with
    | none => rfl
    | some e => exact if_neg (outOfRange e entry)
  | popup =>
    dsimp only
    cases entry : b.menu[m.toNat]? with
    | none => rfl
    | some e => exact if_neg (outOfRange e entry)

end

/-- An ITEM beyond its menu: the tracker is in a region of a defined menu that has no such item. -/
def Tracker.ItemBeyond (b : Bank) (k : ItemNo) (t : Tracker) : Prop :=
  ∃ m kind it, t.region = .inside m kind it ∧ kind ≠ .undefined ∧ ¬ b.hasItem m k

theorem Tracker.item_faults (b : Bank) (k : ItemNo) (t : Tracker) [Decidable (t.ItemBeyond b k)] :
    (t.item b k).2 =
      (if t.region = .outside then [.menuForm] else []) ++ (if t.ItemBeyond b k then [.itemRange] else []) := by
  cases region : t.region with
  | outside =>
    have notBeyond : ¬ t.ItemBeyond b k := fun ⟨_, _, _, inside, _⟩ => nomatch region.symm.trans inside
    rw [Tracker.item_outside region, if_pos rfl, if_neg notBeyond]
    rfl
  | inside m kind it =>
    rw [if_neg nofun]
    by_cases undefined : kind = .undefined
    · subst undefined
      have notBeyond : ¬ t.ItemBeyond b k := fun ⟨_, _, _, inside, defined, _⟩ => by
        rw [region] at inside
        cases inside
        exact defined rfl
      rw [Tracker.item_undefined region, if_neg notBeyond]
      rfl
    · by_cases has : b.hasItem m k
      · have notBeyond : ¬ t.ItemBeyond b k := fun ⟨_, _, _, inside, _, noItem⟩ => by
          rw [region] at inside
          cases inside
          exact noItem has
        obtain ⟨e, entry, within⟩ := has
        rw [Tracker.item_within region undefined entry within, if_neg notBeyond]
        rfl
      · rw [Tracker.item_beyond region undefined has, if_pos ⟨m, kind, it, region, undefined, has⟩]
        rfl

/-- Settles O13: the faults of a MENU-OPEN by the region and the menu, those of an ITEM by the region and the count. -/
theorem menuMarksOpenRegionsAndSetItems : Obligations.MenuMarksOpenRegionsAndSetItems := by
  unfold Obligations.MenuMarksOpenRegionsAndSetItems
  constructor
  · intro s a m free opened reached
    have faults (tr : Tracker) : (tr.take s.active (.menuOpen m)).2 =
        (if tr.region ≠ .outside then [.menuForm] else []) ++
          (if s.active.regionKind m = .undefined then [.menuUndefined] else []) := by
      rw [ite_not]
      rfl
    obtain ⟨t, inside, undefined, run, others, taken, nodup, mem, nodup', mem', whole⟩ :=
      exec_mark_raisingTwo .menuForm .menuUndefined (fun tr => tr.region ≠ .outside)
        (fun _ => s.active.regionKind m = .undefined) faults rfl free opened reached
    exact ⟨s.active.regionKind m, t, inside, undefined, run, fun e => Bank.regionKind_of_entry,
      Bank.regionKind_of_none, others, taken, nodup, mem, nodup', mem', whole⟩
  · intro s a k free opened reached
    classical
    obtain ⟨t, outside, beyond, run, others, taken, nodup, mem, nodup', mem', whole⟩ :=
      exec_mark_raisingTwo (m := .item k) .menuForm .itemRange (fun tr => tr.region = .outside)
        (Tracker.ItemBeyond s.active k) (fun tr => tr.item_faults s.active k) rfl free opened reached
    refine ⟨t, outside, beyond, run, others, fun n hn => ⟨fun out => ?_, fun m it undefined => ?_,
      fun m kind it inside defined => ⟨fun e i entry within item => ?_, fun none => ?_⟩⟩, nodup, mem, nodup', mem',
        whole⟩
    · exact (taken n hn).trans (congrArg Prod.fst (Tracker.item_outside out))
    · exact (taken n hn).trans (congrArg Prod.fst (Tracker.item_undefined undefined))
    · have left := (taken n hn).trans (congrArg Prod.fst (Tracker.item_within inside defined entry within))
      have disabled : ((some i).map fun i : ItemEntry => !i.enabled).getD true = decide (i.enabled = false) := by
        show (!i.enabled) = _
        cases i.enabled <;> rfl
      rw [show s.active.item? e k = some i from item, disabled] at left
      exact left
    · exact (taken n hn).trans (congrArg Prod.fst (Tracker.item_beyond inside defined none))

end Sys2Proof.Machine
end

section
/-! SUPPORT and PROOFS. The Stream Editor on one delivery (chapter 9): what the edits make of a beam record outside and
inside the menu regions. -/

namespace Sys2Proof.Machine

/-! ## The edits of one delivery (R153 to R157) -/

theorem blankBeam_toList (r : Beam) : (blankBeam r).toList = r.blanked := by
  cases r <;> rfl

theorem relight_eq_lit (v : Intensity) (r : Beam) : relight v r = r.lit v := by
  cases r <;> rfl

/-- The record as it is shown, before any blanking. -/
def Edits.shown (e : Edits) (r : Beam) : Beam :=
  let dimmed := match e.dim with
    | some level => r.lit level
    | none => r
  if e.highlight then dimmed.lit 7 else dimmed

theorem Edits.apply_toList (e : Edits) (r : Beam) :
    (e.apply r).toList =
      if e.blank = true then r.blanked else if e.blink = true then (e.shown r).blanked else [e.shown r] := by
  obtain ⟨blank, dim, highlight, blink⟩ := e
  unfold Edits.apply Edits.shown
  dsimp only
  rw [← blankBeam_toList, ← blankBeam_toList]
  cases blank with
  | true => rfl
  | false =>
    simp only [relight_eq_lit]
    cases blink <;> rfl

/-- A record as the gate places it: moved to the anchor, where there is one (R114). -/
def placedAt : Option Point → Beam → Beam
  | some p, r => translate p r
  | none, r => r

/-- What the delivery of a beam record that passes the gate forwards. -/
theorem State.prepBeam_passed {s : State} {n : HeadNo} {anchor : Option Point} (a : FileAddr) (b : Beam)
    (passed : gate s.active s.chans[n] n s.trackers[n].snapshot = some anchor) :
    s.prepBeam a b n =
      ((decideEdits s.active s.flags s.chans[n].highlight s.passCount n s.trackers[n].snapshot).apply
        (placedAt anchor b)).toList.map
        fun x => ⟨x, .stream a, s.trackers[n].snapshot⟩ := by
  unfold State.prepBeam prepareBeam
  rw [passed]
  dsimp only
  have each (o : Option Beam) : (match o with | some r => [⟨r, .stream a, s.trackers[n].snapshot⟩] | none => []) =
      o.toList.map fun x => (⟨x, .stream a, s.trackers[n].snapshot⟩ : Prepared) := by
    cases o <;> rfl
  cases anchor <;> exact each _

/-! ## Patterns against a name path (R151, R152) -/

theorem levelsMatch_iff (ls : List PatternLevel) (path : Path) :
    levelsMatch ls path = true ↔
      ls.length ≤ path.length ∧ ∀ (j : Nat) (l : PatternLevel), ls[j]? = some l → l.care = true →
        path[j]? = some l.value := by
  induction ls generalizing path with
  | nil => exact iff_of_true rfl ⟨Nat.zero_le _, nofun⟩
  | cons l ls ih =>
    cases path with
    | nil => exact iff_of_false nofun fun ⟨short, _⟩ => nomatch short
    | cons v vs =>
      have here : (!l.care || l.value == v) = true ↔ (l.care = true → v = l.value) := by
        rw [Bool.or_eq_true, Bool.not_eq_true', beq_iff_eq, ← Bool.not_eq_true, ← imp_iff_not_or, @eq_comm _ v]
      rw [levelsMatch, Bool.and_eq_true, here, ih, List.length_cons, List.length_cons, Nat.succ_le_succ_iff]
      constructor
      · rintro ⟨first, short, rest⟩
        refine ⟨short, fun j x entry care => ?_⟩
        cases j with
        | zero =>
          cases entry
          exact congrArg some (first care)
        | succ j => exact rest j x entry care
      · rintro ⟨short, all⟩
        exact ⟨fun care => Option.some.inj (all 0 l rfl care), short, fun j x entry care => all (j + 1) x entry care⟩

theorem PatternEntry.covers_iff {p : PatternEntry} (h : HeadNo) (path : Path) (depth : p.depth.toNat ≤ 6) :
    p.covers h path = true ↔
      p.mask.getLsbD h.val = true ∧ p.depth.toNat ≤ path.length ∧
        ∀ j : Fin 6, j.val < p.depth.toNat → p.levels[j].care = true → path[j.val]? = some p.levels[j].value := by
  have length : (p.levels.toList.take p.depth.toNat).length = p.depth.toNat := by
    rw [List.length_take, Vector.length_toList, Nat.min_eq_left depth]
  unfold PatternEntry.covers
  rw [Bool.and_eq_true, levelsMatch_iff, length]
  refine and_congr_right fun _ => and_congr_right fun _ => ⟨fun all j within care => ?_, fun all j l entry care => ?_⟩
  · refine all j.val p.levels[j] ?_ care
    rw [List.getElem?_take_of_lt within, Vector.getElem?_toList]
    exact Vector.getElem?_eq_getElem j.isLt
  · have within : j < p.depth.toNat := by
      rw [← length]
      exact (List.getElem?_eq_some_iff.1 entry).1
    rw [List.getElem?_take_of_lt within, Vector.getElem?_toList,
      Vector.getElem?_eq_getElem (Nat.lt_of_lt_of_le within depth)] at entry
    cases entry
    exact all ⟨j, Nat.lt_of_lt_of_le within depth⟩ within care

theorem vec_zip_any_iff {α β : Type} {k : Nat} (v : Vector α k) (w : Vector β k) (test : α × β → Bool) :
    (v.toList.zip w.toList).any test = true ↔ ∃ i : Fin k, test (v[i], w[i]) = true := by
  have zip : v.toList.zip w.toList = (Vector.zip v w).toList := Vector.toList_zip.symm
  rw [zip, vec_any_iff]
  simp

/-- The code of a pattern kind that edits (R148). -/
def PatternKind.code : PatternKind → BitVec 2
  | .none => 0 | .highlight => 1 | .blink => 2 | .blank => 3

theorem PatternEntry.what_iff (p : PatternEntry) (kind : PatternKind) : p.what = kind ↔ p.kind = kind.code := by
  have all : ∀ (c : BitVec 2) (kind : PatternKind),
      (match c.toNat with | 1 => PatternKind.highlight | 2 => .blink | 3 => .blank | _ => .none) = kind ↔
        c = kind.code := by
    intro c kind
    cases kind <;> revert c <;> decide
  exact all p.kind kind

/-- A live pattern of a kind matches a clean path exactly when it covers it (R151). -/
theorem State.matchesKind_iff {s : State} {kind : PatternKind} {n : HeadNo} {snap : Snapshot} {path : Path}
    (edits : kind ≠ .none)
    (depths : ∀ k : Fin 16, s.active.pattern[k].kind ≠ 0 → s.active.pattern[k].depth.toNat ≤ 6)
    (clean : snap.cleanPath = some path) :
    s.active.matchesKind s.flags kind n snap = true ↔ s.PatternCovers kind.code n path := by
  unfold Bank.matchesKind
  rw [clean]
  dsimp only
  rw [vec_zip_any_iff]
  refine exists_congr fun k => ?_
  dsimp only
  rw [Bool.and_eq_true, Bool.and_eq_true, beq_iff_eq, PatternEntry.what_iff, and_assoc]
  refine and_congr_right fun _ => and_congr_right fun code => PatternEntry.covers_iff n path (depths k ?_)
  rw [code]
  cases kind with
  | none => exact absurd rfl edits
  | _ => decide

theorem slotMatches_iff {slot : Option Path} {snap : Snapshot} {path : Path} (clean : snap.cleanPath = some path) :
    slotMatches slot snap = true ↔ ∃ i, slot = some i ∧ i <+: path := by
  unfold slotMatches
  rw [clean]
  cases slot with
  | none => exact iff_of_false nofun fun ⟨_, named, _⟩ => nomatch named
  | some i => simp

/-- No edit of a name path is made where there is no clean path. -/
theorem decideEdits_unclean (b : Bank) (flags : Vector Bool 16) (slot : Option Path) (pass : PassNo) (n : HeadNo)
    {snap : Snapshot} (unclean : snap.cleanPath = none) :
    decideEdits b flags slot pass n snap =
      ⟨false, if snap.dimmed then some b.global.dim else none, false, false⟩ := by
  have noKind (kind : PatternKind) : b.matchesKind flags kind n snap = false := by
    unfold Bank.matchesKind; rw [unclean]
  have noSlot : slotMatches slot snap = false := by
    unfold slotMatches; rw [unclean]; cases slot <;> rfl
  unfold decideEdits
  rw [noKind, noKind, noKind, noSlot]
  rfl

/-- The edits of a delivery with a clean name path (R151, R152, R156, R157). -/
theorem State.decideEdits_clean {s : State} {n : HeadNo} {path : Path} {e : Edits}
    (depths : ∀ k : Fin 16, s.active.pattern[k].kind ≠ 0 → s.active.pattern[k].depth.toNat ≤ 6)
    (isEdits : decideEdits s.active s.flags s.chans[n].highlight s.passCount n (.name (path.map .value) false) = e) :
    (e.blank = true ↔ s.PatternCovers 3 n path) ∧ e.dim = none ∧
      (e.highlight = true ↔ s.PatternCovers 1 n path ∨ ∃ i, s.chans[n].highlight = some i ∧ i <+: path) ∧
      (e.blink = true ↔ s.PatternCovers 2 n path ∧ 8 ≤ s.passCount.toNat % 16) := by
  have clean : (Snapshot.name (path.map .value) false).cleanPath = some path := pathValues_values path
  have kinds (kind : PatternKind) (edits : kind ≠ .none) := State.matchesKind_iff (n := n) edits depths clean
  subst isEdits
  unfold decideEdits
  dsimp only
  rw [Bool.or_eq_true, Bool.and_eq_true, blinkHidden, decide_eq_true_eq, slotMatches_iff clean,
    kinds .blank nofun, kinds .highlight nofun, kinds .blink nofun]
  exact ⟨.rfl, rfl, .rfl, .rfl⟩

/-- Settles O15: a poisoned path is clean of edits; for another the edits follow the patterns that cover it. -/
theorem editsOutsideMenuRegions : Obligations.EditsOutsideMenuRegions := by
  unfold Obligations.EditsOutsideMenuRegions
  intro s n a b outside depths
  have snap := Tracker.snapshot_outside outside
  have passed : gate s.active s.chans[n] n s.trackers[n].snapshot = some none := by rw [snap]; rfl
  rw [State.prepBeam_passed a b passed, snap]
  refine ⟨fun poisoned => ?_, fun path clean stack lit isLit notLit out blanked blinked passes => ?_⟩
  · rw [poisoned, decideEdits_unclean s.active s.flags s.chans[n].highlight s.passCount n
      (snap := .name s.trackers[n].stack true) rfl]
    rfl
  · rw [clean, stack]
    generalize isEdits : decideEdits s.active s.flags s.chans[n].highlight s.passCount n
      (.name (path.map .value) false) = e
    obtain ⟨blank, dim, highlight, blink⟩ := State.decideEdits_clean depths isEdits
    have shown : e.shown b = lit := by
      unfold Edits.shown
      rw [dim]
      dsimp only
      by_cases covered : e.highlight = true
      · rw [if_pos covered, isLit (highlight.1 covered)]
      · rw [if_neg covered, notLit (mt highlight.2 covered)]
    refine congrArg (List.map _) ?_
    rw [Edits.apply_toList]
    show (if e.blank = true then b.blanked else if e.blink = true then (e.shown b).blanked else [e.shown b]) = out
    rw [shown]
    split_ifs with isBlank isBlink
    · exact (blanked (blank.1 isBlank)).symm
    · exact (blinked (mt blank.2 isBlank) (blink.1 isBlink).1 (blink.1 isBlink).2).symm
    · exact (passes (mt blank.2 isBlank) (mt blink.2 isBlink)).symm

/-! ## Inside a menu region (R112, R114, R154) -/

/-- A delivery with a menu snapshot is dimmed, or it is not edited. -/
theorem State.prepBeam_inside {s : State} {n : HeadNo} {m : MenuId} {kind : RegionKind} {item : Option ItemMark}
    {anchor : Option Point} (a : FileAddr) (b : Beam) (inside : s.trackers[n].region = .inside m kind item)
    (passed : gate s.active s.chans[n] n (.menu m kind item) = some anchor) :
    s.prepBeam a b n =
      [⟨if (Snapshot.menu m kind item).dimmed = true then (placedAt anchor b).lit s.active.global.dim
        else placedAt anchor b, .stream a, .menu m kind item⟩] := by
  have snap : s.trackers[n].snapshot = .menu m kind item := by unfold Tracker.snapshot; rw [inside]
  rw [← snap] at passed
  rw [State.prepBeam_passed a b passed, snap, decideEdits_unclean _ _ _ _ _ rfl]
  cases (Snapshot.menu m kind item).dimmed with
  | false => rfl
  | true =>
    rw [if_pos rfl, if_pos rfl, ← relight_eq_lit]
    rfl

theorem Snapshot.dimmed_defined {m : MenuId} {kind : RegionKind} {item : Option ItemMark}
    (defined : kind ≠ .undefined) :
    (Snapshot.menu m kind item).dimmed = true ↔ ∃ k, item = some ⟨k, true⟩ := by
  have marked : (Snapshot.menu m kind item).dimmed = (item.map (·.disabled)).getD false := by
    cases kind with
    | undefined => exact absurd rfl defined
    | _ => cases item <;> rfl
  rw [marked]
  cases item with
  | none => exact iff_of_false nofun nofun
  | some mark =>
    obtain ⟨k, disabled⟩ := mark
    cases disabled <;> simp

/-- The owner of a menu of the table (R103). -/
theorem Bank.menuOwner_iff (b : Bank) (m : MenuId) (n : HeadNo) :
    (b.menu? m).bind MenuEntry.owner? = some n ↔ ∃ e, b.menu[m.toNat]? = some e ∧ e.owner.toNat = n.val := by
  rw [Option.bind_eq_some_iff]
  exact exists_congr fun e => and_congr_right fun _ => e.owner?_eq_some n

theorem gate_popup_shown {b : Bank} {c : PenChannel} {n : HeadNo} {m : MenuId} {item : Option ItemMark} {e : MenuEntry}
    {p : Popup} (entry : b.menu[m.toNat]? = some e) (owner : e.owner.toNat = n.val) (popup : c.state = .popup p)
    (menu : p.menu = m) : gate b c n (.menu m .popup item) = some (some p.anchor) := by
  have owned := (b.menuOwner_iff m n).2 ⟨e, entry, owner⟩
  unfold gate
  rw [popup]
  dsimp only
  rw [owned, menu]
  simp

theorem gate_popup_hidden {b : Bank} {c : PenChannel} {n : HeadNo} {m : MenuId} {item : Option ItemMark}
    (hidden : ¬ ∃ e p, b.menu[m.toNat]? = some e ∧ e.owner.toNat = n.val ∧ c.state = .popup p ∧ p.menu = m) :
    gate b c n (.menu m .popup item) = none := by
  unfold gate
  dsimp only
  split
  · next p popup =>
    refine if_neg fun shown => hidden ?_
    rw [Bool.and_eq_true, decide_eq_true_eq, beq_iff_eq] at shown
    obtain ⟨owned, menu⟩ := shown
    obtain ⟨e, entry, owner⟩ := (b.menuOwner_iff m n).1 owned
    exact ⟨e, p, entry, owner, popup, menu⟩
  · rfl

/-- Settles O16: no region of another kind is gated, and a POPUP region by its owner and the pop-up open there. -/
theorem editsInsideMenuRegions : Obligations.EditsInsideMenuRegions := by
  unfold Obligations.EditsInsideMenuRegions
  intro s n a b m kind item inside
  refine ⟨?_, ?_, ?_⟩
  · rintro rfl
    exact State.prepBeam_inside (anchor := none) a b inside rfl
  · rintro rfl
    rw [State.prepBeam_inside (anchor := none) a b inside rfl,
      if_congr (Snapshot.dimmed_defined (kind := .fixed) nofun) rfl rfl]
    rfl
  · rintro rfl
    have snap : s.trackers[n].snapshot = .menu m .popup item := by unfold Tracker.snapshot; rw [inside]
    refine ⟨fun hidden => ?_, fun e p entry owner popup menu moved isMove isDraw isText => ?_⟩
    · unfold State.prepBeam prepareBeam
      rw [snap, gate_popup_hidden hidden]
    · have isMoved : placedAt (some p.anchor) b = moved := by
        cases b with
        | move q => exact (isMove q rfl).symm
        | draw q i => exact (isDraw q i rfl).symm
        | text i cs => exact (isText i cs rfl).symm
      rw [State.prepBeam_inside a b inside (gate_popup_shown entry owner popup menu), isMoved,
        if_congr (Snapshot.dimmed_defined (kind := .popup) nofun) rfl rfl]

end Sys2Proof.Machine
end

section
/-! SUPPORT and PROOFS. The expansions of the slots (sections 8.2 and 8.5): the cross and the readout. -/

namespace Sys2Proof.Machine

/-! ## What a slot delivers (R15, R158) -/

theorem gate_unless_popup {b : Bank} {c : PenChannel} {n : HeadNo} {t : Tracker}
    (other : ∀ m it, t.region ≠ .inside m .popup it) : gate b c n t.snapshot = some none := by
  unfold Tracker.snapshot
  cases region : t.region with
  | outside => rfl
  | inside m kind it =>
    cases kind with
    | popup => exact absurd region (other m it)
    | _ => rfl

theorem State.prepSlot_idle {s : State} {n : HeadNo} (k : Slot) (idle : ∀ t, s.chans[n].state ≠ .track t) :
    s.prepSlot k n = [] := by
  unfold State.prepSlot prepareSlot
  split
  · next t p track passed => exact absurd track (idle t)
  · rfl

theorem State.prepSlot_gated {s : State} {n : HeadNo} (k : Slot) {m : MenuId} {it : Option ItemMark}
    (inside : s.trackers[n].region = .inside m .popup it) : s.prepSlot k n = [] := by
  have snap : s.trackers[n].snapshot = .menu m .popup it := by unfold Tracker.snapshot; rw [inside]
  unfold State.prepSlot prepareSlot
  split
  · next t p track passed =>
    rw [snap, gate_popup_hidden fun ⟨_, _, _, _, popup, _⟩ => nomatch track.symm.trans popup] at passed
    cases passed
  · rfl

theorem filterMap_map_eq_flatMap {α β γ : Type} (f : α → Option β) (g : α → β → γ) (l : List α) :
    (l.filterMap fun x => (f x).map (g x)) = l.flatMap fun x => (f x).toList.map (g x) := by
  induction l with
  | nil => rfl
  | cons x xs ih =>
    rw [List.filterMap_cons, List.flatMap_cons, ← ih]
    cases f x <;> rfl

/-- A slot at the head of a tracking channel is its expansion, each record edited (R158). -/
theorem State.prepSlot_track {s : State} {n : HeadNo} {t : Tracking} (k : Slot) (track : s.chans[n].state = .track t)
    (other : ∀ m it, s.trackers[n].region ≠ .inside m .popup it) :
    s.prepSlot k n = s.edited n (expansion s.active n t k) := by
  have passed : gate s.active s.chans[n] n s.trackers[n].snapshot = some none := gate_unless_popup other
  unfold State.prepSlot prepareSlot
  rw [track, passed]
  refine (filterMap_map_eq_flatMap
    (fun x : Beam × Origin =>
      (decideEdits s.active s.flags s.chans[n].highlight s.passCount n s.trackers[n].snapshot).apply x.1)
    (fun x r => (⟨r, x.2, s.trackers[n].snapshot⟩ : Prepared)) _).trans ?_
  unfold State.edited
  refine List.flatMap_congr fun x _ => ?_
  rw [State.prepBeam_passed 0 x.1 passed, List.map_map]
  rfl

/-! ## The cross (R132) -/

theorem clampPoint_east (c : Point) (k : Int) :
    clampPoint (c.x.toInt + k) c.y.toInt = ⟨clampCoord (c.x.toInt + k), c.y⟩ := by
  unfold clampPoint; rw [clampCoord_self]

theorem clampPoint_north (c : Point) (k : Int) :
    clampPoint c.x.toInt (c.y.toInt + k) = ⟨c.x, clampCoord (c.y.toInt + k)⟩ := by
  unfold clampPoint; rw [clampCoord_self]

/-- Settles O17: the expansion arm by arm. -/
theorem crossExpandsIntoTwelveRecords : Obligations.CrossExpandsIntoTwelveRecords := by
  unfold Obligations.CrossExpandsIntoTwelveRecords
  refine ⟨clampCoord_toInt, fun s n => ⟨State.prepSlot_idle .cross, fun ⟨m, it, inside⟩ =>
    State.prepSlot_gated .cross inside, fun t track other => ?_⟩⟩
  rw [State.prepSlot_track .cross track other]
  refine congrArg (s.edited n) ?_
  simp only [expansion, crossRecords, armRecords, armPoint, Int.sub_eq_add_neg, clampPoint_east, clampPoint_north,
    List.cons_append, List.nil_append]

/-! ## The readout (R141 to R143) -/

theorem axisField_length (c : Char8) (e : Option Int) : (axisField c e).length = 10 := by
  unfold axisField
  cases e with
  | none => rfl
  | some e =>
    dsimp only
    split_ifs <;> rfl

theorem readoutText_length (b : Bank) (view : NameVal) (p : Point) : (readoutText b view p).length = 21 := by
  unfold readoutText
  rw [List.length_append, List.length_append, axisField_length, axisField_length]
  rfl

/-- The sign's character (section 12.5). -/
theorem sign_eq (e : Int) : (if e < 0 then 45 else 43 : Char8) = if 0 ≤ e then 43 else 45 := by
  by_cases negative : e < 0
  · rw [if_pos negative, if_neg (Int.not_le.2 negative)]
  · rw [if_neg negative, if_pos (Int.not_lt.1 negative)]

theorem digit_of_lt {k : Nat} (small : k < 10) : digit k = BitVec.ofNat 8 (48 + k) := by
  unfold digit; rw [Nat.mod_eq_of_lt small]

theorem axisField_overflow (c : Char8) {e : Int} (large : 999 < e.natAbs / 96) :
    axisField c (some e) = [c, if 0 ≤ e then 43 else 45, 42, 42, 42, 45, 42, 42, 45, 42] := by
  rw [← sign_eq]
  exact if_pos large

theorem axisField_digits (c : Char8) {e : Int} (small : e.natAbs / 96 ≤ 999) :
    axisField c (some e) =
      [c, if 0 ≤ e then 43 else 45, digit (e.natAbs / 96 / 100), digit (e.natAbs / 96 / 10), digit (e.natAbs / 96), 45,
       digit (e.natAbs % 96 / 8 / 10), digit (e.natAbs % 96 / 8), 45, digit (e.natAbs % 8)] := by
  rw [← sign_eq]
  exact if_neg (Nat.not_lt.2 small)

/-- Signed eighths stay within the bound of the formula (R142). -/
theorem eighths_bounded {p o : Coord} {k : Word} {e : Int} (some : eighths p o k = some e) :
    -1048304 ≤ e ∧ e ≤ 1048304 := by
  unfold eighths at some
  split_ifs at some with absent
  obtain rfl := Option.some.inj some
  have low := BitVec.le_toInt p
  have high := BitVec.toInt_lt (x := p)
  have low' := BitVec.le_toInt o
  have high' := BitVec.toInt_lt (x := o)
  have distance : (p.toInt - o.toInt).natAbs ≤ 4095 := by omega
  have scale : k.toNat ≤ 65535 := by have := k.isLt; omega
  have product : ((p.toInt - o.toInt) * (k.toNat : Int)).natAbs ≤ 4095 * 65535 := by
    rw [Int.natAbs_mul]
    exact Nat.mul_le_mul distance scale
  have quotient : (((p.toInt - o.toInt) * (k.toNat : Int)).tdiv 256).natAbs ≤ 1048304 := by
    rw [Int.natAbs_tdiv]
    exact Nat.le_trans (Nat.div_le_div_right product) (by decide)
  omega

/-- Settles O18: the two records, the characters of an axis, and the eighths. -/
theorem readoutExpandsIntoMoveAndText : Obligations.ReadoutExpandsIntoMoveAndText := by
  unfold Obligations.ReadoutExpandsIntoMoveAndText
  refine ⟨fun s n p => ⟨State.prepSlot_idle (.readout p),
    fun ⟨m, it, inside⟩ => State.prepSlot_gated (.readout p) inside,
    fun t track other => ⟨State.prepSlot_track (.readout p) track other, readoutText_length ..⟩⟩,
    ⟨fun _ _ _ => rfl, fun _ => rfl, fun c e large => ?_, fun c e small => ?_⟩,
    fun _ _ _ => rfl, fun _ _ _ _ => eighths_bounded, fun b view p beyond => ?_, fun b view p k same => ?_⟩
  · exact axisField_overflow c large
  · refine ⟨e.natAbs / 96 / 100, e.natAbs / 96 / 10 % 10, e.natAbs / 96 % 10, e.natAbs % 96 / 8 / 10,
      e.natAbs % 96 / 8 % 10, e.natAbs % 8, by omega, by omega, by omega, by omega, by omega, by omega, by omega,
      by omega, rfl, ?_⟩
    rw [axisField_digits c small, digit_of_lt (by omega : e.natAbs / 96 / 100 < 10),
      digit_of_lt (by omega : e.natAbs % 96 / 8 / 10 < 10), digit_of_lt (by omega : e.natAbs % 8 < 10)]
    rfl
  · unfold readoutEighths Bank.scale?
    rw [Vector.getElem?_eq_none (Nat.succ_le_of_lt beyond)]
  · unfold readoutEighths Bank.scale?
    have entry : b.scale[view.toNat]? = some b.scale[k] := by
      rw [same]
      exact Vector.getElem?_eq_getElem k.isLt
    rw [entry]

end Sys2Proof.Machine
end

section
/-! SUPPORT and PROOFS. The records of the display stream written and read (section 12.1): the fields of the words, and
each kind of record read back. -/

namespace Sys2Proof

/-! ## The fields of written words -/

section
variable (tag code channel pattern : BitVec 8) (flag : Bool)

theorem field_header_kind (kind : BitVec 4) (length : BitVec 8) (page : BitVec 4) :
    Word.field (kind ++ length ++ page) 12 4 = kind := by
  unfold Word.field; grind

theorem field_header_length (kind : BitVec 4) (length : BitVec 8) (page : BitVec 4) :
    Word.field (kind ++ length ++ page) 4 8 = length := by
  unfold Word.field; grind

theorem field_header_page (kind : BitVec 4) (length : BitVec 8) (page : BitVec 4) :
    Word.field (kind ++ length ++ page) 0 4 = page := by
  unfold Word.field; grind

theorem addr_of_words (a : FileAddr) : a.extractLsb' 16 4 ++ (a.setWidth 16 : Word) = a := by
  grind

theorem field_setWidth {len : Nat} (x : BitVec len) (fits : len ≤ 16) : Word.field (x.setWidth 16) 0 len = x := by
  unfold Word.field
  rw [BitVec.extractLsb'_setWidth_of_le (by omega), BitVec.extractLsb'_eq_self]

theorem field_high_byte : Word.field (code ++ tag) 8 8 = code := by
  unfold Word.field; grind

theorem field_high_nibble : Word.field (code ++ tag) 12 4 = code.extractLsb' 4 4 := by
  unfold Word.field; grind

theorem field_low_byte : Word.field (code ++ tag) 0 8 = tag := by
  unfold Word.field; grind

theorem bit_flag : Word.bit (BitVec.ofBool flag ++ (0 : BitVec 15)) 15 = flag := by
  unfold Word.bit; grind

theorem field_text_intensity (i : BitVec 3) (count : BitVec 6) :
    Word.field ((0 : BitVec 5) ++ i ++ (0 : BitVec 2) ++ count) 8 3 = i := by
  unfold Word.field; grind

theorem field_text_count (i : BitVec 3) (count : BitVec 6) :
    Word.field ((0 : BitVec 5) ++ i ++ (0 : BitVec 2) ++ count) 0 6 = count := by
  unfold Word.field; grind

theorem field_name_level (l : BitVec 3) (v : BitVec 12) : Word.field ((0 : BitVec 1) ++ l ++ v) 12 3 = l := by
  unfold Word.field; grind

theorem field_name_value (l : BitVec 3) (v : BitVec 12) : Word.field ((0 : BitVec 1) ++ l ++ v) 0 12 = v := by
  unfold Word.field; grind

theorem readBank_writeTableWord (bank : BankId) (table : BitVec 4) (count : BitVec 5) :
    readBank (writeTableWord bank table count) = bank := by
  unfold readBank writeTableWord Word.bit
  cases bank <;> grind [writeBank]

theorem field_table (bank : BankId) (table : BitVec 4) (count : BitVec 5) :
    Word.field (writeTableWord bank table count) 8 4 = table := by
  unfold Word.field writeTableWord; grind

theorem field_table_count (bank : BankId) (table : BitVec 4) (count : BitVec 5) :
    Word.field (writeTableWord bank table count) 0 5 = count := by
  unfold Word.field writeTableWord; grind

theorem bit_pattern : Word.bit (BitVec.ofBool flag ++ (0 : BitVec 7) ++ pattern) 15 = flag := by
  unfold Word.bit; grind

theorem field_pattern : Word.field (BitVec.ofBool flag ++ (0 : BitVec 7) ++ pattern) 0 8 = pattern := by
  unfold Word.field; grind

theorem field_item (it : BitVec 4) : Word.field (it ++ (0 : BitVec 12)) 12 4 = it := by
  unfold Word.field; grind

end

/-! ## Points and characters -/

theorem readCoord_writeCoord (c : Coord) : readCoord (writeCoord c) = c := field_setWidth c (by decide)

theorem readPoint_written (p : Point) (ws : List Word) : readPoint (writeCoord p.x :: writeCoord p.y :: ws) = p := by
  show (⟨readCoord (writeCoord p.x), readCoord (writeCoord p.y)⟩ : Point) = p
  rw [readCoord_writeCoord, readCoord_writeCoord]

theorem writeChars_length : ∀ cs : List Char8, (writeChars cs).length = (cs.length + 1) / 2
  | [] => rfl
  | [c] => by
    show 1 = (1 + 1) / 2
    decide
  | _ :: _ :: cs => by
    rw [writeChars, List.length_cons, writeChars_length cs, List.length_cons, List.length_cons]
    omega

theorem readChars_writeChars : ∀ cs : List Char8, (readChars (writeChars cs)).take cs.length = cs
  | [] => rfl
  | [c] => by
    show [Word.field (c ++ (0 : BitVec 8)) 8 8] = [c]
    rw [field_high_byte]
  | c :: d :: cs => by
    show Word.field (c ++ d) 8 8 :: Word.field (c ++ d) 0 8 :: (readChars (writeChars cs)).take cs.length = _
    rw [field_high_byte, field_low_byte, readChars_writeChars cs]

/-! ## One record (R194) -/

/-- A record's header tells its kind, its length and its address. -/
theorem readRecord_withHeader (addr : FileAddr) (kind : BitVec 4) {payload : List Word} (fits : payload.length ≤ 253)
    (rest : List Word) :
    readRecord (withHeader addr kind payload ++ rest) =
      some (⟨addr, readBody kind.toNat (2 + payload.length) payload⟩, rest) := by
  have length : (BitVec.ofNat 8 (2 + payload.length)).toNat = 2 + payload.length := by
    rw [BitVec.toNat_ofNat, Nat.mod_eq_of_lt (by omega)]
  show readRecord ((kind ++ BitVec.ofNat 8 (2 + payload.length) ++ addr.extractLsb' 16 4 : Word) ::
    (addr.setWidth 16 : Word) :: (payload ++ rest)) = _
  unfold readRecord
  dsimp only
  rw [field_header_kind, field_header_length, field_header_page, addr_of_words, length, Nat.add_sub_cancel_left,
    List.take_left, List.drop_left, if_neg (by rw [List.length_append]; omega)]

/-- The words of a body, if it has some, are read back as the body. -/
def RecordBody.ReadsBack (b : RecordBody) : Prop :=
  ∃ p, writeBody b = some p ∧ p.2.length ≤ 253 ∧ readBody p.1.toNat (2 + p.2.length) p.2 = b

/-- The operand words of a directive are read back as the directive, and their number agrees with the code. -/
def Directive.ReadsBack (d : Directive) : Prop :=
  (writeDirective d).2.length ≤ 251 ∧
    directiveLengthOk (4 + (writeDirective d).2.length) (writeDirective d).1 (writeDirective d).2 = true ∧
    readOperands (writeDirective d).1 (writeDirective d).2 = d

theorem readBody_text (len : Nat) (w : Word) (ws : List Word) :
    readBody 4 len (w :: ws) =
      formed (len == 3 + ((w.field 0 6).toNat + 1) / 2 &&
          decide (1 ≤ (w.field 0 6).toNat ∧ (w.field 0 6).toNat ≤ 32))
        (.beam (.text (w.field 8 3) ((readChars ws).take (w.field 0 6).toNat))) := rfl

theorem readBody_directive (len : Nat) (w v : Word) (ops : List Word) :
    readBody 11 len (w :: v :: ops) =
      formed (decide (4 ≤ len) && directiveLengthOk len (w.field 8 8) ops)
        (.directive (w.field 0 8) (v.bit 15) (readOperands (w.field 8 8) ops)) := rfl

theorem formed_true {ok : Bool} (holds : ok = true) (b : RecordBody) : formed ok b = b := if_pos holds

theorem Beam.readsBack (r : Beam) (formed : ∀ i cs, r = .text i cs → 1 ≤ cs.length ∧ cs.length ≤ 32) :
    RecordBody.ReadsBack (.beam r) := by
  refine ⟨_, rfl, ?_⟩
  cases r with
  | move p =>
    refine ⟨(by decide : 2 ≤ 253), ?_⟩
    show RecordBody.beam (.move (readPoint [writeCoord p.x, writeCoord p.y])) = _
    rw [readPoint_written]
  | draw p i =>
    refine ⟨(by decide : 3 ≤ 253), ?_⟩
    show RecordBody.beam (.draw (readPoint [writeCoord p.x, writeCoord p.y, i.setWidth 16])
      (Word.field (i.setWidth 16) 0 3)) = _
    rw [readPoint_written, field_setWidth i (by decide)]
  | text i cs =>
    obtain ⟨least, most⟩ := formed i cs rfl
    have count : (BitVec.ofNat 6 cs.length).toNat = cs.length := by
      rw [BitVec.toNat_ofNat, Nat.mod_eq_of_lt (by omega)]
    have length : 2 + ((writeChars cs).length + 1) = 3 + (cs.length + 1) / 2 := by rw [writeChars_length]; omega
    refine ⟨?_, ?_⟩
    · show (writeChars cs).length + 1 ≤ 253
      rw [writeChars_length]
      omega
    · show readBody 4 (2 + ((writeChars cs).length + 1))
        (((0 : BitVec 5) ++ i ++ (0 : BitVec 2) ++ BitVec.ofNat 6 cs.length : Word) :: writeChars cs) = _
      rw [readBody_text, field_text_count, field_text_intensity, count, readChars_writeChars, length]
      exact formed_true (by rw [beq_self_eq_true, decide_eq_true ⟨least, most⟩]; rfl) _

/-! ## Marks and slots -/

theorem Mark.readsBack (m : Mark) (formed : ∀ l v, m = .name l v → 1 ≤ l.toNat ∧ l.toNat ≤ 6) :
    RecordBody.ReadsBack (.mark m) := by
  cases m with
  | name l v =>
    refine ⟨_, rfl, (by decide : 1 ≤ 253), ?_⟩
    show Sys2Proof.formed (decide (1 ≤ (Word.field ((0 : BitVec 1) ++ l ++ v) 12 3).toNat ∧
        (Word.field ((0 : BitVec 1) ++ l ++ v) 12 3).toNat ≤ 6))
      (.mark (.name (Word.field ((0 : BitVec 1) ++ l ++ v) 12 3) (Word.field ((0 : BitVec 1) ++ l ++ v) 0 12))) = _
    rw [field_name_level, field_name_value, decide_eq_true (formed l v rfl)]
    rfl
  | menuOpen id =>
    refine ⟨_, rfl, (by decide : 1 ≤ 253), ?_⟩
    show RecordBody.mark (.menuOpen (Word.field (id.setWidth 16) 0 6)) = _
    rw [field_setWidth id (by decide)]
  | item k =>
    refine ⟨_, rfl, (by decide : 1 ≤ 253), ?_⟩
    show RecordBody.mark (.item (Word.field (k.setWidth 16) 0 5)) = _
    rw [field_setWidth k (by decide)]
  | menuClose => exact ⟨_, rfl, (by decide : 0 ≤ 253), rfl⟩

theorem Slot.readsBack (k : Slot) : RecordBody.ReadsBack (.slot k) := by
  cases k with
  | cross => exact ⟨_, rfl, (by decide : 0 ≤ 253), rfl⟩
  | readout p =>
    refine ⟨_, rfl, (by decide : 2 ≤ 253), ?_⟩
    show RecordBody.slot (.readout (readPoint [writeCoord p.x, writeCoord p.y])) = _
    rw [readPoint_written]

/-! ## Directives (section 12.2) -/

/-- A directive with one operand word. -/
theorem Directive.readsBack_oneWord {d : Directive} {code : BitVec 8} {w : Word}
    (written : writeDirective d = (code, [w]))
    (one : operandWords code.toNat = some 1) (read : readOperands code [w] = d) : d.ReadsBack := by
  have notWriteTable : code.toNat ≠ 1 := fun same => by rw [same] at one; cases one
  unfold Directive.ReadsBack
  rw [written]
  refine ⟨(by decide : 1 ≤ 251), ?_, read⟩
  unfold directiveLengthOk
  rw [if_neg notWriteTable, one]
  rfl

/-- A directive without operand words. -/
theorem Directive.readsBack_noWords {d : Directive} {code : BitVec 8} (written : writeDirective d = (code, []))
    (none : operandWords code.toNat = some 0) (read : readOperands code [] = d) : d.ReadsBack := by
  have notWriteTable : code.toNat ≠ 1 := fun same => by rw [same] at none; cases none
  unfold Directive.ReadsBack
  rw [written]
  refine ⟨(by decide : 0 ≤ 251), ?_, read⟩
  unfold directiveLengthOk
  rw [if_neg notWriteTable, none]
  rfl

theorem imagesWellFormed_short {table : BitVec 4} {count : BitVec 5} {images : List Word}
    (formed : imagesWellFormed table count images = true) : images.length ≤ 249 := by
  unfold imagesWellFormed at formed
  split at formed
  · exact of_decide_eq_true (Bool.and_eq_true_iff.1 formed).2
  · exact of_decide_eq_true formed

theorem Directive.readsBack_writeTable {bank : BankId} {table : BitVec 4} {first : Word} {count : BitVec 5}
    {images : List Word} (formed : imagesWellFormed table count images = true) :
    Directive.ReadsBack (.writeTable bank table first count images) := by
  have short : images.length ≤ 249 := imagesWellFormed_short formed
  refine ⟨Nat.add_le_add_right short 2, ?_, ?_⟩
  · refine (if_pos rfl : directiveLengthOk _ (1 : BitVec 8) _ = _).trans ?_
    show (match imageWords (Word.field (writeTableWord bank table count) 8 4) with
      | some n => decide (6 ≤ 4 + (images.length + 2)) &&
          4 + (images.length + 2) == 6 + (Word.field (writeTableWord bank table count) 0 5).toNat * n
      | none => decide (6 ≤ 4 + (images.length + 2))) = true
    rw [field_table, field_table_count]
    unfold imagesWellFormed at formed
    cases words : imageWords table with
    | none => exact decide_eq_true (by omega)
    | some n =>
      rw [words] at formed
      simp only [Bool.and_eq_true, beq_iff_eq, decide_eq_true_eq] at formed ⊢
      omega
  · show Directive.writeTable (readBank (writeTableWord bank table count))
      (Word.field (writeTableWord bank table count) 8 4)
      first (Word.field (writeTableWord bank table count) 0 5) images = _
    rw [readBank_writeTableWord, field_table, field_table_count]

theorem Directive.readsBack_unknown {code : BitVec 8} {ops : List Word} (other : code.toNat = 0 ∨ 15 < code.toNat)
    (fits : ops.length ≤ 251) : Directive.ReadsBack (.unknown code ops) := by
  have noCode : operandWords code.toNat = none ∧ readOperands code ops = .unknown code ops := by
    unfold operandWords readOperands
    dsimp only
    constructor
    · split
      any_goals omega
      rfl
    · split
      any_goals omega
      rfl
  refine ⟨fits, ?_, noCode.2⟩
  show directiveLengthOk (4 + ops.length) code ops = true
  unfold directiveLengthOk
  rw [if_neg (by omega), noCode.1]
  exact decide_eq_true (Nat.le_add_right _ _)

theorem readStatusItem_channel (n : BitVec 8) : readStatusItem ((0x10 : BitVec 8) ++ n) = .readChannel n := by
  have item : Word.field ((0x10 : BitVec 8) ++ n) 12 4 = 1 := field_high_nibble n 0x10
  unfold readStatusItem
  rw [item, field_low_byte]
  rfl

theorem readStatusItem_head (n : BitVec 8) : readStatusItem ((0x20 : BitVec 8) ++ n) = .readHead n := by
  have item : Word.field ((0x20 : BitVec 8) ++ n) 12 4 = 2 := field_high_nibble n 0x20
  unfold readStatusItem
  rw [item, field_low_byte]
  rfl

theorem readStatusItem_pass {it : BitVec 4} (pass : 4 ≤ it.toNat) :
    readStatusItem (it ++ (0 : BitVec 12)) = .readPass it := by
  unfold readStatusItem
  rw [field_item]
  split
  case h_5 => rfl
  all_goals omega

theorem Directive.readsBack {d : Directive} (formed : d.wellFormed = true) : d.ReadsBack := by
  have channel (n : BitVec 8) : Word.field (n.setWidth 16) 0 8 = n := field_setWidth n (by decide)
  cases d with
  | writeTable bank table first count images => exact Directive.readsBack_writeTable formed
  | readTable bank table first count =>
    refine ⟨(by decide : 2 ≤ 251), rfl, ?_⟩
    show Directive.readTable (readBank (writeTableWord bank table count))
      (Word.field (writeTableWord bank table count) 8 4)
      first (Word.field (writeTableWord bank table count) 0 5) = _
    rw [readBank_writeTableWord, field_table, field_table_count]
  | copyBank => exact Directive.readsBack_noWords rfl rfl rfl
  | clearBank => exact Directive.readsBack_noWords rfl rfl rfl
  | switchBank => exact Directive.readsBack_noWords rfl rfl rfl
  | cancelSwitch => exact Directive.readsBack_noWords rfl rfl rfl
  | enableChannel n => exact Directive.readsBack_oneWord rfl rfl (congrArg Directive.enableChannel (channel n))
  | disableChannel n => exact Directive.readsBack_oneWord rfl rfl (congrArg Directive.disableChannel (channel n))
  | abortAttempt n => exact Directive.readsBack_oneWord rfl rfl (congrArg Directive.abortAttempt (channel n))
  | forceTrack n x y view =>
    refine ⟨(by decide : 4 ≤ 251), rfl, ?_⟩
    show Directive.forceTrack (Word.field (n.setWidth 16) 0 8) x y (Word.field (view.setWidth 16) 0 12) = _
    rw [channel, field_setWidth view (by decide)]
  | clearHighlight n => exact Directive.readsBack_oneWord rfl rfl (congrArg Directive.clearHighlight (channel n))
  | setPatternFlag on pattern =>
    exact Directive.readsBack_oneWord rfl rfl (congrArg₂ Directive.setPatternFlag (bit_pattern ..) (field_pattern ..))
  | restartHead n => exact Directive.readsBack_oneWord rfl rfl (congrArg Directive.restartHead (channel n))
  | readFaults => exact Directive.readsBack_oneWord rfl rfl rfl
  | readFaultsClear => exact Directive.readsBack_oneWord rfl rfl rfl
  | readChannel n => exact Directive.readsBack_oneWord rfl rfl (readStatusItem_channel n)
  | readHead n => exact Directive.readsBack_oneWord rfl rfl (readStatusItem_head n)
  | readBanks => exact Directive.readsBack_oneWord rfl rfl rfl
  | readPass it => exact Directive.readsBack_oneWord rfl rfl (readStatusItem_pass (of_decide_eq_true formed))
  | restart => exact Directive.readsBack_noWords rfl rfl rfl
  | unknown code ops =>
    obtain ⟨other, fits⟩ := Bool.and_eq_true_iff.1 formed
    exact Directive.readsBack_unknown (of_decide_eq_true other) (of_decide_eq_true fits)

theorem RecordBody.readsBack_directive (tag : Tag) (want : Bool) {d : Directive} (reads : d.ReadsBack) :
    RecordBody.ReadsBack (.directive tag want d) := by
  obtain ⟨fits, length, read⟩ := reads
  refine ⟨_, rfl, Nat.add_le_add_right fits 2, ?_⟩
  have total : 2 + ((writeDirective d).2.length + 2) = 4 + (writeDirective d).2.length := by omega
  show readBody 11 (2 + ((writeDirective d).2.length + 2))
    (((writeDirective d).1 ++ tag : Word) :: (BitVec.ofBool want ++ (0 : BitVec 15) : Word) :: (writeDirective d).2) = _
  rw [readBody_directive, field_high_byte, field_low_byte, bit_flag, read, total, length]
  exact formed_true (by rw [decide_eq_true (Nat.le_add_right _ _)]; rfl) _

theorem Record.readsBack {r : Record} (formed : r.wellFormed = true) : r.body.ReadsBack := by
  obtain ⟨addr, body⟩ := r
  cases body with
  | malformed => cases formed
  | passStart => exact ⟨_, rfl, (by decide : 0 ≤ 253), rfl⟩
  | passEnd => exact ⟨_, rfl, (by decide : 0 ≤ 253), rfl⟩
  | beam b =>
    refine b.readsBack fun i cs isText => ?_
    subst isText
    exact of_decide_eq_true formed
  | mark m =>
    refine m.readsBack fun l v isName => ?_
    subst isName
    exact of_decide_eq_true formed
  | slot k => exact k.readsBack
  | directive tag want d => exact RecordBody.readsBack_directive tag want (Directive.readsBack formed)

end Sys2Proof

namespace Sys2Proof.Machine

/-- Settles O51, by the kind of the record. -/
theorem readingUndoesWriting : Obligations.ReadingUndoesWriting := by
  unfold Obligations.ReadingUndoesWriting
  intro r formed
  obtain ⟨p, written, fits, read⟩ := Record.readsBack formed
  refine ⟨withHeader r.addr p.1 p.2, ?_, fun rest => ?_⟩
  · unfold writeRecord
    rw [written, Option.map_some]
  · rw [readRecord_withHeader r.addr p.1 fits rest, read]

end Sys2Proof.Machine
end

section
/-! SUPPORT and PROOFS. The entry images (section 12.3): each entry is read back from its image, and a range of images
from the words that hold it. -/

namespace Sys2Proof.Machine

/-! ## One entry (R195) -/

/-- A head-map window is read back from its three words, wherever they stand. -/
theorem Window.ofWords_toWords (w : Window) {ws : List Word} {i : Nat} (first : wordAt ws i = w.toWords.getD 0 0)
    (second : wordAt ws (i + 1) = w.toWords.getD 1 0) (third : wordAt ws (i + 2) = w.toWords.getD 2 0) :
    Window.ofWords ws i = w := by
  obtain ⟨enable, base, limit⟩ := w
  unfold Window.ofWords
  rw [first, second, third]
  dsimp only [Window.toWords, List.getD_cons_zero, List.getD_cons_succ]
  congr 1
  · unfold Word.bit; grind
  · unfold Word.field; grind
  · unfold Word.field; grind

theorem HeadMapEntry.ofWords_toWords (e : HeadMapEntry) : HeadMapEntry.ofWords e.toWords = e :=
  congrArg₂ HeadMapEntry.mk (e.w0.ofWords_toWords rfl rfl rfl) (e.w1.ofWords_toWords rfl rfl rfl)

theorem ProfileEntry.ofWords_toWords (e : ProfileEntry) : ProfileEntry.ofWords e.toWords = e := by
  obtain ⟨g, l, lag, d, filter, k, m, a, popup, view⟩ := e
  dsimp only [ProfileEntry.ofWords, ProfileEntry.toWords, wordAt, List.getD_cons_zero, List.getD_cons_succ]
  unfold Word.bit Word.field
  congr 1 <;> grind

theorem ClassEntry.ofWords_toWords (e : ClassEntry) : ClassEntry.ofWords e.toWords = e := by
  obtain ⟨highlight, track, priority⟩ := e
  dsimp only [ClassEntry.ofWords, ClassEntry.toWords, wordAt, List.getD_cons_zero]
  unfold Word.bit Word.field
  congr 1 <;> grind

theorem FilterEntry.ofWords_toWords (e : FilterEntry) : FilterEntry.ofWords e.toWords = e := by
  obtain ⟨mask, other, refuse, level, limit⟩ := e
  dsimp only [FilterEntry.ofWords, FilterEntry.toWords, wordAt, List.getD_cons_zero, List.getD_cons_succ]
  unfold Word.bit Word.field
  congr 1 <;> grind

theorem MenuEntry.ofWords_toWords (e : MenuEntry) : MenuEntry.ofWords e.toWords = e := by
  obtain ⟨kind, owner, count, first, w, h⟩ := e
  dsimp only [MenuEntry.ofWords, MenuEntry.toWords, wordAt, List.getD_cons_zero, List.getD_cons_succ]
  unfold Word.field
  congr 1 <;> grind

theorem ItemEntry.ofWords_toWords (e : ItemEntry) : ItemEntry.ofWords e.toWords = e := by
  obtain ⟨action, enabled, code, arg⟩ := e
  dsimp only [ItemEntry.ofWords, ItemEntry.toWords, wordAt, List.getD_cons_zero, List.getD_cons_succ]
  unfold Word.bit Word.field
  congr 1 <;> grind

theorem PatternLevel.ofWord_toWord (l : PatternLevel) : PatternLevel.ofWord l.toWord = l := by
  obtain ⟨care, value⟩ := l
  unfold PatternLevel.ofWord PatternLevel.toWord Word.bit Word.field
  congr 1 <;> grind

theorem PatternEntry.wordAt_level (e : PatternEntry) {j : Nat} (inside : j < 6) :
    wordAt e.toWords (j + 1) = e.levels[j].toWord := by
  unfold wordAt PatternEntry.toWords
  rw [List.getD_cons_succ]
  simp [inside]

theorem PatternEntry.levels_ofWords_toWords (e : PatternEntry) :
    (PatternEntry.ofWords e.toWords).levels = e.levels := by
  have level (j : Nat) (inside : j < 6) : PatternLevel.ofWord (wordAt e.toWords (j + 1)) = e.levels[j] := by
    rw [e.wordAt_level inside, PatternLevel.ofWord_toWord]
  show #v[PatternLevel.ofWord (wordAt e.toWords 1), .ofWord (wordAt e.toWords 2), .ofWord (wordAt e.toWords 3),
    .ofWord (wordAt e.toWords 4), .ofWord (wordAt e.toWords 5), .ofWord (wordAt e.toWords 6)] = e.levels
  rw [level 0 (by decide), level 1 (by decide), level 2 (by decide), level 3 (by decide), level 4 (by decide),
    level 5 (by decide)]
  ext j inside : 1
  interval_cases j <;> rfl

theorem PatternEntry.ofWords_toWords (e : PatternEntry) : PatternEntry.ofWords e.toWords = e := by
  have levels := e.levels_ofWords_toWords
  obtain ⟨kind, mask, active, depth, levelsOf⟩ := e
  rw [PatternEntry.mk.injEq]
  refine ⟨?_, ?_, ?_, ?_, levels⟩
  · show Word.field (kind ++ (0 : BitVec 2) ++ mask ++ BitVec.ofBool active ++ (0 : BitVec 4) ++ depth) 14 2 = kind
    unfold Word.field; grind
  · show Word.field (kind ++ (0 : BitVec 2) ++ mask ++ BitVec.ofBool active ++ (0 : BitVec 4) ++ depth) 8 4 = mask
    unfold Word.field; grind
  · show Word.bit (kind ++ (0 : BitVec 2) ++ mask ++ BitVec.ofBool active ++ (0 : BitVec 4) ++ depth) 7 = active
    unfold Word.bit; grind
  · show Word.field (kind ++ (0 : BitVec 2) ++ mask ++ BitVec.ofBool active ++ (0 : BitVec 4) ++ depth) 0 3 = depth
    unfold Word.field; grind

theorem ScaleEntry.ofWords_toWords (e : ScaleEntry) : ScaleEntry.ofWords e.toWords = e := by
  obtain ⟨x0, y0, sx, sy⟩ := e
  dsimp only [ScaleEntry.ofWords, ScaleEntry.toWords, wordAt, List.getD_cons_zero, List.getD_cons_succ]
  unfold Word.field
  congr 1 <;> grind

theorem ringOfWords_toWords (c : BitVec 3) : ringOfWords (ringToWords c) = c := field_setWidth c (by decide)

theorem GlobalEntry.ofWords_toWords (e : GlobalEntry) : GlobalEntry.ofWords e.toWords = e := by
  obtain ⟨head, dim, stall, mask⟩ := e
  rw [GlobalEntry.mk.injEq]
  refine ⟨?_, ?_, ?_, ?_⟩
  · show Word.field ((0 : BitVec 5) ++ head ++ (0 : BitVec 5) ++ dim) 8 3 = head
    unfold Word.field; grind
  · show Word.field ((0 : BitVec 5) ++ head ++ (0 : BitVec 5) ++ dim) 0 3 = dim
    unfold Word.field; grind
  · show #v[Word.field (stall[0] ++ stall[1]) 8 8, Word.field (stall[0] ++ stall[1]) 0 8,
      Word.field (stall[2] ++ stall[3]) 8 8, Word.field (stall[2] ++ stall[3]) 0 8] = stall
    rw [field_high_byte, field_low_byte, field_high_byte, field_low_byte]
    ext j inside : 1
    interval_cases j <;> rfl
  · show Word.field ((0 : BitVec 4) ++ mask) 0 12 = mask
    unfold Word.field; grind

/-! ## The images of a bank (R165, R166) -/

/-- An entry written from its own image stands as it was. -/
theorem setIfInBounds_ofWords {α : Type} {k : Nat} {toWords : α → List Word} {ofWords : List Word → α}
    (readBack : ∀ e, ofWords (toWords e) = e) (v : Vector α k) (i : Nat) :
    v.setIfInBounds i (ofWords ((v[i]?.map toWords).getD [])) = v := by
  by_cases inside : i < k
  · rw [Vector.getElem?_eq_getElem inside, Option.map_some, Option.getD_some, readBack]
    ext j here : 1
    rw [Vector.getElem_setIfInBounds]
    split_ifs with same
    · subst same; rfl
    · rfl
  · exact Vector.setIfInBounds_eq_of_size_le (Nat.not_lt.1 inside)

theorem Bank.write_image (c : Bank) (t : TableId) (i : Nat) : c.write t i (c.image t i) = c := by
  cases t with
  | headmap =>
    exact congrArg (fun v => { c with headmap := v }) (setIfInBounds_ofWords HeadMapEntry.ofWords_toWords c.headmap i)
  | profile =>
    exact congrArg (fun v => { c with profile := v }) (setIfInBounds_ofWords ProfileEntry.ofWords_toWords c.profile i)
  | classes =>
    exact congrArg (fun v => { c with classes := v }) (setIfInBounds_ofWords ClassEntry.ofWords_toWords c.classes i)
  | filter =>
    exact congrArg (fun v => { c with filter := v }) (setIfInBounds_ofWords FilterEntry.ofWords_toWords c.filter i)
  | permit =>
    exact congrArg (fun v => { c with permit := v })
      (setIfInBounds_ofWords (toWords := fun w => [w]) (ofWords := fun ws => wordAt ws 0) (fun _ => rfl) c.permit i)
  | menu =>
    exact congrArg (fun v => { c with menu := v }) (setIfInBounds_ofWords MenuEntry.ofWords_toWords c.menu i)
  | item =>
    exact congrArg (fun v => { c with item := v }) (setIfInBounds_ofWords ItemEntry.ofWords_toWords c.item i)
  | pattern =>
    exact congrArg (fun v => { c with pattern := v }) (setIfInBounds_ofWords PatternEntry.ofWords_toWords c.pattern i)
  | scale =>
    exact congrArg (fun v => { c with scale := v }) (setIfInBounds_ofWords ScaleEntry.ofWords_toWords c.scale i)
  | ring =>
    exact congrArg (fun v => { c with ring := v }) (setIfInBounds_ofWords ringOfWords_toWords c.ring i)
  | global =>
    unfold Bank.write Bank.image
    dsimp only
    split_ifs
    · rw [GlobalEntry.ofWords_toWords]
    · rfl

theorem image_length_of {α : Type} {k n i : Nat} {toWords : α → List Word} (length : ∀ e, (toWords e).length = n)
    (v : Vector α k) (inside : i < k) : ((v[i]?.map toWords).getD []).length = n := by
  rw [Vector.getElem?_eq_getElem inside, Option.map_some, Option.getD_some, length]

theorem PatternEntry.toWords_length (e : PatternEntry) : e.toWords.length = 7 := by
  simp [PatternEntry.toWords]

theorem Bank.image_length (c : Bank) {t : TableId} {i : Nat} (inside : i < t.size) :
    (c.image t i).length = t.words := by
  cases t with
  | pattern => exact image_length_of PatternEntry.toWords_length c.pattern inside
  | global =>
    obtain rfl : i = 0 := Nat.lt_one_iff.1 inside
    rfl
  | headmap => exact image_length_of (toWords := HeadMapEntry.toWords) (fun _ => rfl) c.headmap inside
  | profile => exact image_length_of (toWords := ProfileEntry.toWords) (fun _ => rfl) c.profile inside
  | classes => exact image_length_of (toWords := ClassEntry.toWords) (fun _ => rfl) c.classes inside
  | filter => exact image_length_of (toWords := FilterEntry.toWords) (fun _ => rfl) c.filter inside
  | permit => exact image_length_of (toWords := fun w : Word => [w]) (fun _ => rfl) c.permit inside
  | menu => exact image_length_of (toWords := MenuEntry.toWords) (fun _ => rfl) c.menu inside
  | item => exact image_length_of (toWords := ItemEntry.toWords) (fun _ => rfl) c.item inside
  | scale => exact image_length_of (toWords := ScaleEntry.toWords) (fun _ => rfl) c.scale inside
  | ring => exact image_length_of (toWords := ringToWords) (fun _ => rfl) c.ring inside

/-- Piece `j` of lists of one length written one after another. -/
theorem take_drop_flatMap {α β : Type} (f : α → List β) {k : Nat} {l : List α} (length : ∀ x ∈ l, (f x).length = k)
    {j : Nat} {x : α} (piece : l[j]? = some x) : ((l.flatMap f).drop (j * k)).take k = f x := by
  induction l generalizing j with
  | nil => cases piece
  | cons y ys ih =>
    have here : (f y).length = k := length y List.mem_cons_self
    rw [List.flatMap_cons]
    cases j with
    | zero =>
      cases piece
      rw [Nat.zero_mul, List.drop_zero, List.take_left' here]
    | succ j =>
      rw [Nat.add_mul, Nat.one_mul, Nat.add_comm, ← List.drop_drop, List.drop_left' here]
      exact ih (fun z mem => length z (List.mem_cons_of_mem y mem)) piece

/-- Settles O52, entry by entry of the range. -/
theorem imagesSurviveReadAndWrite : Obligations.ImagesSurviveReadAndWrite := by
  unfold Obligations.ImagesSurviveReadAndWrite
  intro b c t first n fits
  refine List.flatMap_congr fun j mem => ?_
  have within : j < n := List.mem_range.1 mem
  have piece : ((c.images t first n).drop (j * t.words)).take t.words = c.image t (first + j) := by
    refine take_drop_flatMap (fun j => c.image t (first + j)) (fun x hx => c.image_length ?_)
      (List.getElem?_range within)
    have := List.mem_range.1 hx
    omega
  rw [Bank.image_writeAll b t t first n (first + j) _ fits, if_pos ⟨rfl, Nat.le_add_right _ _, by omega⟩,
    Nat.add_sub_cancel_left, piece, Bank.image_write_same b c t (first + j) _ (by omega), c.write_image]

end Sys2Proof.Machine
end
